-- ==== Sys2Proof/Word.lean ====
section
/-! DEFINITION. The bit vectors of the machine: byte, halfword, word, double word, register number (00_scope.md R5, R9). -/

namespace Sys2Proof

/-- 8 bits, the unit of addressing (R9, R40). -/
abbrev Byte := BitVec 8

/-- 16 bits (R9). -/
abbrev Half := BitVec 16

/-- 32 bits: a general register, the pc, an address, an instruction (R5, R9, R70). -/
abbrev Word := BitVec 32

/-- 64 bits: the Stable Counter, a full product (R5, R118). -/
abbrev DWord := BitVec 64

/-- The number of a general register, r0 to r31 (R21, R74). -/
abbrev RegNum := BitVec 5

end Sys2Proof
end

