-- ==== Sys2Proof/Config.lean ====
section
/-! DEFINITION. What an implementation or the platform fixes (00_scope.md R6), and the free values: what the spec draws
with `any_32()` and `any_1()` (R13) or leaves to the environment. A free value is an opaque constant, so no proof can know
anything of it; it is applied to a counter that State holds, so that two draws are never assumed equal. -/

namespace Sys2Proof.Config

/-! ## The platform (R6, R66) -/

/-- The two storage access types: strongly-ordered uncached and coherent cached (R47). -/
inductive Mat where
  | suc
  | cc
  deriving DecidableEq, Repr

/-- What answers at an address of the map: storage, storage that can only be read (R229), or a device whose behaviour the
spec does not give (R50, R237). Of a device the platform says whether its reads have side effects, and whether an instruction
fetch that no program asked for can reach it, that is, whether nothing filters such fetches on their way (R269; log 35). -/
inductive Backing where
  | storage
  | readOnly
  | device (readSensitive fetchable : Bool)
  deriving DecidableEq, Repr

/-- A part of the platform's map: the byte addresses from `base` on, `size` of them, with the MAT field (R47) that holds
there, two bits as a page-table entry has them. There are regions whose platform no step runs on (U6, U17; logs 10, 35). -/
structure Region where
  base : Nat
  size : Nat
  mat : BitVec 2
  backing : Backing
  deriving DecidableEq, Repr

/-- The open parameters of R6 that the platform fixes: `ADDR_MAX`, `MemMap` with `MatOf`, and `IneWords`. They are data,
so that what is claimed of every state is claimed of every platform (log 8). -/
structure Platform where
  addrMax : Word
  regions : List Region
  ineWords : List Word
  deriving DecidableEq, Repr

/-- The platform a run from reset has: the range the source states (R41), all of it coherent cached storage, and no word
that raises INE (R222). DESIGN CHOICE, unsafe: the spec leaves the map open (log 8). -/
def defaultPlatform : Platform where
  addrMax := 0x7FFFFFFF
  regions := [⟨0, 0x80000000, 1, .storage⟩]
  ineWords := []

/-! ## Values at reset that the spec leaves open -/

/-- `RESET_PC` (R261). PRESUMED, unsafe: the family's reset address, which the spec names as general knowledge (G8, log 3). -/
def resetPc : Word := 0x1C000000

/-- What x[1] to x[31] hold at reset. DESIGN CHOICE, unsafe: the spec gives none (R262, log 2). -/
def resetGr : Word := 0

/-- `COUNTER_ID` (R32, R205). DESIGN CHOICE, unsafe: the spec gives no value (D25, log 6). -/
def resetCounterId : Word := 0

/-- What a byte of memory that nothing has written reads as. DESIGN CHOICE, unsafe: memory after reset is unspecified
(R35, log 7). -/
def blankByte : Byte := 0

/-! ## Free values -/

/-- `any_32()`: the result of a division by zero (R126) and of DIV.W of -2^31 by -1 (R127). Safe (log 12, 13). -/
opaque anyWord : Nat → Word

/-- `any_1()`: LLbit after an SC.W (R185). Safe (log 14). -/
opaque anyBit : Nat → Bool

/-- Whether the environment clears LLbit before a step (R186 item 2). Safe (log 15). -/
opaque clearsLLbit : Nat → Bool

/-- How many ticks the Stable Counter counts before a step, modulo 2^64: its rate is not given (R31). Safe (log 16). -/
opaque counterTicks : Nat → DWord

/-- The byte a load gets from a device at an address (R50): the first number is the draw. Safe (log 36). -/
opaque deviceByte : Nat → Nat → Byte

/-- The byte a fetch gets from a device at an address (R50): the first number is the draw. Safe (log 36). -/
opaque deviceFetch : Nat → Nat → Byte

/-- Whether the fetch of a step sees a store that no IBAR has followed yet (R64): the first number is the draw, the second
tells the stores apart. Safe (log 18). -/
opaque fetchSees : Nat → Nat → Bool

end Sys2Proof.Config
end

