-- ==== Sys2Proof/Machine/State.lean ====
section
/-! DEFINITION. The state of the machine (10_state.md R20), the exceptions (60_exceptions.md R221), why a step stops, and
the state after reset (R35). -/

namespace Sys2Proof.Machine

/-- The privilege levels (R28). -/
inductive Plv where
  | plv0
  | plv3
  deriving DecidableEq, Repr

/-- The exceptions of R221, each with the `info` it reports (R230, D28). Raised by: `sys` SYSCALL; `brk` BREAK; `ine` a
word of the platform's `ineWords`; `adef` the fetch at a misaligned pc; `ale` a misaligned load, store, LL.W or SC.W.
`ipe` and `fpe` are on the list and nothing in scope raises them (R223, R225; log 33). -/
inductive Exception where
  | sys (code : BitVec 15)
  | brk (code : BitVec 15)
  | ine (word : Word)
  | ipe
  | adef (badPc : Word)
  | ale (badAddr : Word)
  | fpe
  deriving DecidableEq, Repr

/-- The record of a trap: which exception with its info, and the address of the instruction that raised it (R230). -/
structure Trap where
  exception : Exception
  epc : Word
  deriving DecidableEq, Repr

/-- A store that a fetch may still miss, because no IBAR has followed it (R64): where it began, and the bytes it overwrote
from the lowest address on (log 18). -/
structure UnsyncedStore where
  addr : Nat
  old : List Byte
  deriving DecidableEq, Repr

/-- A store of another agent: the address, and the bytes it writes there from the lowest address on. It is one access, so
it arrives whole or not at all (R54; log 17). -/
structure ForeignStore where
  addr : Nat
  bytes : List Byte
  deriving DecidableEq, Repr

/-- A load or a store that the core has made at a device: the address, with the number of bytes asked for or the bytes
written from the lowest address on (R40, R50; log 36). -/
inductive DeviceAccess where
  | load (addr size : Nat)
  | store (addr : Nat) (bytes : List Byte)
  deriving DecidableEq, Repr

/-- Memory: the bytes that differ from what an unlisted address reads as, by strictly rising address. -/
abbrev Memory := List Host.Cell

/-- The state of the machine. INVENTORY.md lists every field with the rule that names it. -/
structure State where
  /-- x[1] to x[31] (R21); x[0] has no storage. -/
  gr : Vector Word 31
  /-- The address of the current instruction (R23). -/
  pc : Word
  /-- The privilege level (R28). -/
  plv : Plv
  /-- The load-linked flag (R29). -/
  llbit : Bool
  /-- The address LL.W recorded (R29). -/
  lladdr : Word
  /-- The Stable Counter (R31). -/
  stableCounter : DWord
  /-- The Counter ID (R32). -/
  counterId : Word
  /-- Memory as this core's loads see it (R40, R61). -/
  mem : Memory
  /-- The stores no IBAR has followed yet, newest first (R64, R192). -/
  unsynced : List UnsyncedStore
  /-- The loads and stores the core has made at devices, newest first: each once, in program order, as R50
  says it of strongly-ordered uncached ones (R40; log 36). -/
  deviceAccesses : List DeviceAccess
  /-- The stores of other agents still to arrive, one list a step (R10, R186 item 1; log 17). -/
  incoming : List (List ForeignStore)
  /-- The trap that ended the run, if one has (R230, R231). -/
  trap : Option Trap
  /-- The platform's open parameters (R6). -/
  platform : Config.Platform
  /-- The model's own: how many times free values have been drawn (R13; log 25). -/
  draws : Nat
  deriving DecidableEq, Repr

/-- Why a step stops with a fault. -/
inductive Fault where
  /-- The run ended with this trap at an earlier step: raised by `step` on a state that holds a trap record (R231). Where
  the handler is and what it does is not in the spec (R230). Safe: nothing is claimed of the steps after it. -/
  | trapped (t : Trap)
  deriving DecidableEq, Repr

/-- Why a step has no meaning. Each is safe: the model stops where hardware may go on. -/
inductive Refusal where
  /-- An instruction of the table that has no meaning yet: raised by `exec`'s arm. -/
  | notModelled (mnemonic : String)
  /-- A word of no row of the opcode table and not among the platform's `ineWords`: raised by `step` (R86, R222). -/
  | unlisted (word : Word)
  /-- An access to a byte above ADDR_MAX or outside the map: raised by fetch, loads, stores, LL.W, SC.W (R41, R229). -/
  | unmapped (addr : Nat)
  /-- A platform that has a region with this reserved MAT value, 2 or 3: raised by `step`, before anything is fetched
  (R47, D20, U6). -/
  | reservedConfiguration (mat : BitVec 2)
  /-- A platform that has a read-sensitive device at this base where a fetch or a read may be speculated: raised by `step`,
  before anything is fetched (R269, U17; log 35). -/
  | exposedDevice (base : Nat)
  /-- An access to a byte whose MAT is 2 or 3: raised by loads, stores, LL.W, SC.W that `exec` runs on such a platform
  (R47, U6); no step gets that far. -/
  | reservedMat (addr : Nat)
  /-- A store to a byte of read-only storage: raised by stores and SC.W (R229; log 34). -/
  | readOnly (addr : Nat)
  /-- LL.W, or SC.W with LLbit 1, off coherent cached memory: raised by these two (R183, U9). -/
  | llscUncached (addr : Word)
  /-- SC.W with LLbit 1 at another address than LLaddr: raised by SC.W (R183, D14). -/
  | scAddress (addr lladdr : Word)
  deriving DecidableEq, Repr

/-- The machine right after reset (R35). The Stable Counter is 0 by R260; `plv` is R35's own choice (log 4); `gr`, `pc`,
`llbit`, `lladdr`, `counterId`, what memory reads as, the platform and the schedule are values the model names (logs 2, 3,
5, 6, 7, 8, 17). -/
def State.reset : State where
  gr := Vector.replicate 31 Config.resetGr
  pc := Config.resetPc
  plv := .plv0
  llbit := false
  lladdr := 0
  stableCounter := 0
  counterId := Config.resetCounterId
  mem := []
  unsynced := []
  deviceAccesses := []
  incoming := []
  trap := none
  platform := Config.defaultPlatform
  draws := 0

end Sys2Proof.Machine
end

