-- ==== Sys2Proof/Machine/Alu.lean ====
section
/-! DEFINITION. The products and the division of 40_arithmetic.md: the exact value of the operands read as integers,
narrowed at the end. -/

namespace Sys2Proof.Machine

/-- The exact product of two signed words (R118, R119); it fits 64 bits. -/
def signedProduct (a b : Word) : DWord := BitVec.ofInt 64 (a.toInt * b.toInt)

/-- The exact product of two unsigned words (R120). -/
def unsignedProduct (a b : Word) : DWord := BitVec.ofNat 64 (a.toNat * b.toNat)

/-- Bits 31:0 of a product (R118). -/
def lowWord (p : DWord) : Word := p.extractLsb' 0 32

/-- Bits 63:32 of a product (R119, R120), or of the Stable Counter (R204). -/
def highWord (p : DWord) : Word := p.extractLsb' 32 32

/-- The quotient toward zero of two signed words (R125). Of use where it fits and the divisor is not 0. -/
def signedQuotient (n d : Word) : Word := BitVec.ofInt 32 (Int.tdiv n.toInt d.toInt)

/-- The remainder of two signed words, with the sign of the dividend (R125). -/
def signedRemainder (n d : Word) : Word := BitVec.ofInt 32 (Int.tmod n.toInt d.toInt)

/-- The quotient of two unsigned words (R125). -/
def unsignedQuotient (n d : Word) : Word := BitVec.ofNat 32 (n.toNat / d.toNat)

/-- The remainder of two unsigned words (R125). -/
def unsignedRemainder (n d : Word) : Word := BitVec.ofNat 32 (n.toNat % d.toNat)

/-- The one pair of operands whose signed quotient is no 32-bit number: -2^31 by -1 (R127). -/
def quotientOverflows (n d : Word) : Bool := n == 0x80000000 && d == 0xFFFFFFFF

end Sys2Proof.Machine
end

