-- ==== Sys2Proof/Machine/Flags.lean ====
section
/-! DEFINITION. This hardware has no flags (10_state.md R30). What stands in their place are comparisons of two words: a
conditional branch uses one directly (R141 to R146), a set-on-less-than writes one to a register as 0 or 1 (R105 to R108). -/

namespace Sys2Proof.Machine

/-- `signed(a) < signed(b)` (R13). -/
def lessSigned (a b : Word) : Bool := decide (a.toInt < b.toInt)

/-- `unsigned(a) < unsigned(b)` (R13). -/
def lessUnsigned (a b : Word) : Bool := decide (a.toNat < b.toNat)

/-- A comparison as the word 1 or 0 (R105). -/
def truthWord (c : Bool) : Word := if c then 1 else 0

end Sys2Proof.Machine
end

