-- ==== Sys2Proof/Machine/Operands.lean ====
section
/-! DEFINITION. How an immediate field becomes an operand: every form of 30_encoding.md R77, and the extensions of loads
(00_scope.md R13). All addition is modulo 2^32 (R13, R42; log 26). -/

namespace Sys2Proof.Machine

/-- `sext_32(v)` (R13). -/
def sext (v : BitVec w) : Word := v.signExtend 32

/-- `zext_32(v)` (R13). -/
def zext (v : BitVec w) : Word := v.zeroExtend 32

/-- `{si20, 12'b0}` (R77). -/
def upperImm (si20 : BitVec 20) : Word := si20 ++ 0#12

/-- `sext_32({si14, 2'b0})` (R77, R180). -/
def offset14 (si14 : BitVec 14) : Word := sext (si14 ++ 0#2)

/-- `sext_32({offs16, 2'b0})` (R77, R140). -/
def offset16 (offs16 : BitVec 16) : Word := sext (offs16 ++ 0#2)

/-- `sext_32({offs26, 2'b0})` (R77, R140). -/
def offset26 (offs26 : BitVec 26) : Word := sext (offs26 ++ 0#2)

/-- The shift amount of a register: its low five bits (R130). -/
def shiftAmount (v : Word) : Nat := (v.extractLsb' 0 5).toNat

end Sys2Proof.Machine
end

