-- ==== Sys2Proof/Machine/Ops.lean ====
section
/-! DEFINITION. The named operations over memory, the platform's map and the registers, taking an exception, and the
shapes of effect that instructions share. -/

namespace Sys2Proof.Machine

/-- What a meaning or a step answers. -/
abbrev Result := Host.Outcome State Fault Refusal

/-! ## Memory (20_memory.md R40, R44) -/

/-- What an address nothing has written reads as (log 7). -/
def Memory.unlisted : Byte := Config.blankByte

/-- The byte at an address. -/
def Memory.read (m : Memory) (a : Nat) : Byte :=
  match m with
  | [] => Memory.unlisted
  | (k, b) :: rest => if a = k then b else Memory.read rest a

/-- A cell put in its place among cells of other addresses. -/
def Memory.insert (m : Memory) (a : Nat) (b : Byte) : Memory :=
  match m with
  | [] => [(a, b)]
  | (k, c) :: rest => if a < k then (a, b) :: (k, c) :: rest else (k, c) :: Memory.insert rest a b

/-- Memory with one byte written: the old cell goes, and a new one stands unless the byte is what an unlisted address reads
as. -/
def Memory.write (m : Memory) (a : Nat) (b : Byte) : Memory :=
  let others := m.filter (fun c => c.1 != a)
  if b = Memory.unlisted then others else Memory.insert others a b

/-- The canonical form: addresses strictly rising, no cell that an unlisted address would read as. -/
abbrev Memory.wf (m : Memory) : Prop :=
  (m.map Prod.fst).Pairwise (· < ·) ∧ ∀ c ∈ m, c.2 ≠ Memory.unlisted

/-- `n` bytes from an address on, the lowest first. -/
def Memory.readBytes (m : Memory) (a n : Nat) : List Byte :=
  (List.range n).map (fun k => Memory.read m (a + k))

/-- Bytes written from an address on, the lowest first. -/
def Memory.writeBytes (m : Memory) (a : Nat) : List Byte → Memory
  | [] => m
  | b :: rest => Memory.writeBytes (Memory.write m a b) (a + 1) rest

/-- `MemRead(a, 1)` (R44); `read` gives the byte at each address. -/
def memRead8 (read : Nat → Byte) (a : Nat) : Byte := read a

/-- `MemRead(a, 2) = {Mem[a+1], Mem[a]}` (R44). -/
def memRead16 (read : Nat → Byte) (a : Nat) : Half := read (a + 1) ++ read a

/-- `MemRead(a, 4)` (R44). -/
def memRead32 (read : Nat → Byte) (a : Nat) : Word := read (a + 3) ++ read (a + 2) ++ read (a + 1) ++ read a

/-- The low `n` bytes of a register's value in the order `MemWrite` puts them into memory (R44). -/
def storeBytes (n : Nat) (v : Word) : List Byte := (List.range n).map (fun k => v.extractLsb' (8 * k) 8)

/-! ## The platform's map (R41, R47, R66) -/

/-- The access type a MAT field names: 0 SUC, 1 CC, 2 and 3 reserved (R47). -/
def matOfField (f : BitVec 2) : Option Config.Mat :=
  match f.toNat with
  | 0 => some .suc
  | 1 => some .cc
  | _ => none

/-- The byte address lies in the region. -/
def regionCovers (a : Nat) (r : Config.Region) : Bool := decide (r.base ≤ a) && decide (a < r.base + r.size)

/-- The region of a byte address: none above ADDR_MAX or outside the map (R41). -/
def regionAt (p : Config.Platform) (a : Nat) : Option Config.Region :=
  if a ≤ p.addrMax.toNat then p.regions.find? (regionCovers a) else none

/-- What an access does at its bytes: fetches and loads read, stores write. -/
inductive AccessKind where
  | read
  | write
  deriving DecidableEq, Repr

/-- Why the byte at an address cannot be read or written, if it cannot (R229, U6, U12; logs 9, 10, 34). Storage and devices
of the map can (R40, R50). -/
def byteRefusal (p : Config.Platform) (kind : AccessKind) (a : Nat) : Option Refusal :=
  match regionAt p a with
  | none => some (.unmapped a)
  | some r =>
    match matOfField r.mat, r.backing, kind with
    | none, _, _ => some (.reservedMat a)
    | some _, .readOnly, .write => some (.readOnly a)
    | some _, .readOnly, .read => none
    | some _, .storage, _ => none
    | some _, .device _ _, _ => none

/-- Why `n` bytes from an address on cannot be read or written, if they cannot: the first byte that has a reason. -/
def accessRefusal (p : Config.Platform) (kind : AccessKind) (a n : Nat) : Option Refusal :=
  (List.range n).findSome? (fun k => byteRefusal p kind (a + k))

/-- The first region with a reserved MAT value, which makes the platform one the model refuses (R47, D20, U6; log 10). -/
def reservedRegion (p : Config.Platform) : Option Config.Region := p.regions.find? (fun r => matOfField r.mat == none)

/-- The region holds a device whose reads have side effects, where it may be read without the program's asking: by a
speculative fetch in strongly-ordered uncached space that fetches can reach (R269, U17), or in coherent cached space, whose
reads R50 takes to be idempotent (log 35). -/
def exposesDevice (r : Config.Region) : Bool :=
  match r.backing, matOfField r.mat with
  | .device readSensitive fetchable, some .suc => readSensitive && fetchable
  | .device readSensitive _, some .cc => readSensitive
  | _, _ => false

/-- The first region that makes the platform one the model refuses for an exposed device (U17; log 35). -/
def exposedRegion (p : Config.Platform) : Option Config.Region := p.regions.find? exposesDevice

/-- Why no step runs on the platform, if none does: a reserved MAT value, or an exposed device. -/
def platformRefusal (p : Config.Platform) : Option Refusal :=
  match reservedRegion p, exposedRegion p with
  | some r, _ => some (.reservedConfiguration r.mat)
  | none, some r => some (.exposedDevice r.base)
  | none, none => none

/-- A device answers at the byte address (R40, R50). -/
def deviceAt (p : Config.Platform) (a : Nat) : Bool :=
  match regionAt p a with
  | none => false
  | some r =>
    match r.backing with
    | .device _ _ => true
    | .storage | .readOnly => false

/-- One of `n` bytes from an address on is a device's. -/
def touchesDevice (p : Config.Platform) (a n : Nat) : Bool := (List.range n).any (fun k => deviceAt p (a + k))

/-- One of `n` bytes from an address on is no device's. -/
def touchesStorage (p : Config.Platform) (a n : Nat) : Bool := (List.range n).any (fun k => !deviceAt p (a + k))

/-- Bytes written from an address on, the lowest first, where storage answers; what a device is sent is no memory. -/
def Memory.writeStorage (p : Config.Platform) (m : Memory) (a : Nat) : List Byte → Memory
  | [] => m
  | b :: rest => Memory.writeStorage p (if deviceAt p a then m else Memory.write m a b) (a + 1) rest

/-- The access type of a byte is coherent cached (R47). -/
def byteCached (p : Config.Platform) (a : Nat) : Bool :=
  match regionAt p a with
  | none => false
  | some r => matOfField r.mat == some .cc

/-- All of `n` bytes are coherent cached. -/
def accessCached (p : Config.Platform) (a n : Nat) : Bool := (List.range n).all (fun k => byteCached p (a + k))

/-- An address that is no multiple of the access size (R53). -/
def misaligned (a : Word) (n : Nat) : Bool := a.toNat % n != 0

/-! ## Registers (10_state.md R21, R25) -/

/-- `x[r]`: register 0 always reads as 0 (R21). -/
def State.readGr (s : State) (r : RegNum) : Word := if r = 0 then 0 else s.gr.getD (r.toNat - 1) 0

/-- `x[r] <- v`: a write of register 0 changes nothing (R21). -/
def State.writeGr (s : State) (r : RegNum) (v : Word) : State :=
  if r = 0 then s else { s with gr := s.gr.setIfInBounds (r.toNat - 1) v }

/-- `pc <- t`. -/
def State.setPc (s : State) (t : Word) : State := { s with pc := t }

/-- The sequential advance `pc <- pc + 4`, modulo 2^32 (R25). -/
def State.advance (s : State) : State := s.setPc (s.pc + 4)

/-- The load-linked flag with its address (R29). -/
def State.setReservation (s : State) (bit : Bool) (addr : Word) : State := { s with llbit := bit, lladdr := addr }

/-- A free value has been drawn (R13; log 25). -/
def State.drawn (s : State) : State := { s with draws := s.draws + 1 }

/-- The byte a load finds at an address: a free one where a device answers (R50; log 36), else memory's. -/
def State.readByte (s : State) (a : Nat) : Byte :=
  if deviceAt s.platform a then Config.deviceByte s.draws a else Memory.read s.mem a

/-- A load of `n` bytes has been made: where it touches a device it is recorded, and the
device has given values of its own (R50; log 36). -/
def State.loaded (s : State) (a n : Nat) : State :=
  { s with
    deviceAccesses := if touchesDevice s.platform a n then .load a n :: s.deviceAccesses else s.deviceAccesses
    draws := if touchesDevice s.platform a n then s.draws + 1 else s.draws }

/-- Bytes stored from an address on by anyone: storage among them holds them, and where there is storage the store is
remembered, with what it overwrote, until an IBAR (R64; log 18). What a device makes of its bytes is no memory (log 36). -/
def State.store (s : State) (a : Nat) (bytes : List Byte) : State :=
  { s with
    mem := Memory.writeStorage s.platform s.mem a bytes
    unsynced :=
      if touchesStorage s.platform a bytes.length then ⟨a, Memory.readBytes s.mem a bytes.length⟩ :: s.unsynced
      else s.unsynced }

/-- The core's own store: besides, where it touches a device it is recorded (R50; log 36). -/
def State.stored (s : State) (a : Nat) (bytes : List Byte) : State :=
  { s.store a bytes with
    deviceAccesses :=
      if touchesDevice s.platform a bytes.length then .store a bytes :: s.deviceAccesses else s.deviceAccesses }

/-! ## Exceptions (60_exceptions.md R230)

There is no return from an exception beside it: the spec gives none (R232). -/

/-- `raise E(info)`: the trap record is made, with the address of the instruction itself, and everything else stays as it
was (R230). Where the handler is, what else is saved and at which level it runs is not in the spec; the run ends here
(R231; log 11). -/
def raise (e : Exception) (s : State) : State := { s with trap := some ⟨e, s.pc⟩ }

/-! ## Shapes of effect -/

/-- One register is written and the pc advances (R100, R130). -/
def writeAndAdvance (rd : RegNum) (v : Word) (s : State) : Result := .next (s.writeGr rd v).advance

/-- One register is written with a free value, drawn even when the register is r0 (R126, R127). -/
def drawAndAdvance (rd : RegNum) (s : State) : Result :=
  .next ((s.drawn).writeGr rd (Config.anyWord s.draws)).advance

/-- A conditional branch: the pc plus the offset, or the next instruction (R140). -/
def branchIf (taken : Bool) (offs16 : BitVec 16) (s : State) : Result :=
  .next (if taken then s.setPc (s.pc + offset16 offs16) else s.advance)

/-- The address of a load, a store or a prefetch: `x[rj] + sext_32(si12)` (R160). -/
def dataAddress (s : State) (rj : RegNum) (si12 : BitVec 12) : Word := s.readGr rj + sext si12

/-- The address of LL.W and SC.W: `x[rj] + sext_32({si14, 2'b00})` (R180). -/
def atomicAddress (s : State) (rj : RegNum) (si14 : BitVec 14) : Word := s.readGr rj + offset14 si14

/-- A load of `n` bytes: alignment first, then the map, then the register (R160, R169, R228). `value` is what the access
makes of the bytes at the address. -/
def loadTo (rd : RegNum) (addr : Word) (n : Nat) (value : (Nat → Byte) → Nat → Word) (s : State) : Result :=
  if misaligned addr n then .next (raise (.ale addr) s)
  else
    match accessRefusal s.platform .read addr.toNat n with
    | some r => .refused r
    | none => writeAndAdvance rd (value s.readByte addr.toNat) (s.loaded addr.toNat n)

/-- A store of the low `n` bytes of `v`: alignment first, then the map, then the store (R160, R169, R228). -/
def storeFrom (addr : Word) (n : Nat) (v : Word) (s : State) : Result :=
  if misaligned addr n then .next (raise (.ale addr) s)
  else
    match accessRefusal s.platform .write addr.toNat n with
    | some r => .refused r
    | none => .next (s.stored addr.toNat (storeBytes n v)).advance

end Sys2Proof.Machine
end

