-- ==== Sys2Proof/Machine/Arithmetic.lean ====
section
/-! DEFINITION. Arithmetic and logic (40_arithmetic.md). Sources are read before the destination is written (R22, log 30). -/

namespace Sys2Proof.Machine

/-- ADD.W: `x[rd] <- x[rj] + x[rk]`; overflow is ignored (R101). -/
def execAddw (rd rj rk : RegNum) (s : State) : Result :=
  writeAndAdvance rd (s.readGr rj + s.readGr rk) s

/-- SUB.W: `x[rd] <- x[rj] - x[rk]` (R102). -/
def execSubw (rd rj rk : RegNum) (s : State) : Result :=
  writeAndAdvance rd (s.readGr rj - s.readGr rk) s

/-- ADDI.W: `x[rd] <- x[rj] + sext_32(si12)` (R103). -/
def execAddiw (rd rj : RegNum) (si12 : BitVec 12) (s : State) : Result :=
  writeAndAdvance rd (s.readGr rj + sext si12) s

/-- LU12I.W: `x[rd] <- {si20, 12'b0}` (R104). -/
def execLu12iw (rd : RegNum) (si20 : BitVec 20) (s : State) : Result :=
  writeAndAdvance rd (upperImm si20) s

/-- SLT: 1 if `x[rj] < x[rk]` as signed numbers, else 0 (R105). -/
def execSlt (rd rj rk : RegNum) (s : State) : Result :=
  writeAndAdvance rd (truthWord (lessSigned (s.readGr rj) (s.readGr rk))) s

/-- SLTU: as SLT, unsigned (R106). -/
def execSltu (rd rj rk : RegNum) (s : State) : Result :=
  writeAndAdvance rd (truthWord (lessUnsigned (s.readGr rj) (s.readGr rk))) s

/-- SLTI: as SLT with the sign-extended immediate (R107). -/
def execSlti (rd rj : RegNum) (si12 : BitVec 12) (s : State) : Result :=
  writeAndAdvance rd (truthWord (lessSigned (s.readGr rj) (sext si12))) s

/-- SLTUI: the immediate is sign-extended, the comparison unsigned (R108). -/
def execSltui (rd rj : RegNum) (si12 : BitVec 12) (s : State) : Result :=
  writeAndAdvance rd (truthWord (lessUnsigned (s.readGr rj) (sext si12))) s

/-- PCADDU12I: `x[rd] <- pc + {si20, 12'b0}`, the pc of this instruction (R109). -/
def execPcaddu12i (rd : RegNum) (si20 : BitVec 20) (s : State) : Result :=
  writeAndAdvance rd (s.pc + upperImm si20) s

/-- AND, bit by bit (R110). -/
def execAnd (rd rj rk : RegNum) (s : State) : Result :=
  writeAndAdvance rd (s.readGr rj &&& s.readGr rk) s

/-- OR, bit by bit (R111). -/
def execOr (rd rj rk : RegNum) (s : State) : Result :=
  writeAndAdvance rd (s.readGr rj ||| s.readGr rk) s

/-- NOR, bit by bit (R112). -/
def execNor (rd rj rk : RegNum) (s : State) : Result :=
  writeAndAdvance rd (~~~(s.readGr rj ||| s.readGr rk)) s

/-- XOR, bit by bit (R113). -/
def execXor (rd rj rk : RegNum) (s : State) : Result :=
  writeAndAdvance rd (s.readGr rj ^^^ s.readGr rk) s

/-- ANDI with the zero-extended immediate (R114). NOP is `andi 0 0 0` (R117). -/
def execAndi (rd rj : RegNum) (ui12 : BitVec 12) (s : State) : Result :=
  writeAndAdvance rd (s.readGr rj &&& zext ui12) s

/-- ORI with the zero-extended immediate (R115). -/
def execOri (rd rj : RegNum) (ui12 : BitVec 12) (s : State) : Result :=
  writeAndAdvance rd (s.readGr rj ||| zext ui12) s

/-- XORI with the zero-extended immediate (R116). -/
def execXori (rd rj : RegNum) (ui12 : BitVec 12) (s : State) : Result :=
  writeAndAdvance rd (s.readGr rj ^^^ zext ui12) s

/-- MUL.W: bits 31:0 of the product (R118). -/
def execMulw (rd rj rk : RegNum) (s : State) : Result :=
  writeAndAdvance rd (lowWord (signedProduct (s.readGr rj) (s.readGr rk))) s

/-- MULH.W: bits 63:32 of the signed product (R119). -/
def execMulhw (rd rj rk : RegNum) (s : State) : Result :=
  writeAndAdvance rd (highWord (signedProduct (s.readGr rj) (s.readGr rk))) s

/-- MULH.WU: bits 63:32 of the unsigned product (R120). -/
def execMulhwu (rd rj rk : RegNum) (s : State) : Result :=
  writeAndAdvance rd (highWord (unsignedProduct (s.readGr rj) (s.readGr rk))) s

/-- A division: a free value when the divisor is 0 (R126) or where the quotient does not fit (R127), else the result. -/
def divideTo (rd : RegNum) (divisor result : Word) (unfixed : Bool) (s : State) : Result :=
  if divisor = 0 || unfixed then drawAndAdvance rd s else writeAndAdvance rd result s

/-- DIV.W: the quotient toward zero; any value for a divisor 0 and for -2^31 by -1 (R121, R125 to R127). -/
def execDivw (rd rj rk : RegNum) (s : State) : Result :=
  divideTo rd (s.readGr rk) (signedQuotient (s.readGr rj) (s.readGr rk)) (quotientOverflows (s.readGr rj) (s.readGr rk)) s

/-- MOD.W: the remainder with the sign of the dividend, 0 for -2^31 by -1; any value for a divisor 0 (R122, R125 to R127). -/
def execModw (rd rj rk : RegNum) (s : State) : Result :=
  divideTo rd (s.readGr rk) (signedRemainder (s.readGr rj) (s.readGr rk)) false s

/-- DIV.WU: the unsigned quotient; any value for a divisor 0 (R123, R126). -/
def execDivwu (rd rj rk : RegNum) (s : State) : Result :=
  divideTo rd (s.readGr rk) (unsignedQuotient (s.readGr rj) (s.readGr rk)) false s

/-- MOD.WU: the unsigned remainder; any value for a divisor 0 (R124, R126). -/
def execModwu (rd rj rk : RegNum) (s : State) : Result :=
  divideTo rd (s.readGr rk) (unsignedRemainder (s.readGr rj) (s.readGr rk)) false s

end Sys2Proof.Machine
end

