-- ==== Sys2Proof/Machine/Atomic.lean ====
section
/-! DEFINITION. Atomic access (44_atomic.md). -/

namespace Sys2Proof.Machine

/-- LL.W: the word at the address to rd, LLbit to 1, the address to LLaddr (R181). Alignment is checked first (R180), then
the map, then that the memory is coherent cached (R183, U9; log 21). -/
def execLlw (rd rj : RegNum) (si14 : BitVec 14) (s : State) : Result :=
  let addr := atomicAddress s rj si14
  if misaligned addr 4 then .next (raise (.ale addr) s)
  else
    match accessRefusal s.platform .read addr.toNat 4 with
    | some r => .refused r
    | none =>
      if accessCached s.platform addr.toNat 4 then
        writeAndAdvance rd (memRead32 s.readByte addr.toNat) ((s.loaded addr.toNat 4).setReservation true addr)
      else .refused (.llscUncached addr)

/-- What follows the LLbit test of an SC.W: rd gets the LLbit that was seen, and LLbit becomes a free value (R182, R185;
log 14). -/
def finishScw (rd : RegNum) (seen : Bool) (s : State) : Result :=
  writeAndAdvance rd (if seen then 1 else 0) (s.drawn.setReservation (Config.anyBit s.draws) s.lladdr)

/-- SC.W: the store happens only when LLbit is 1, and rd tells whether it did (R182). Alignment is checked first (D27).
With LLbit 0 nothing is accessed, so every aligned address will do; with LLbit 1 the address is the LL.W's and coherent
cached, or the spec gives no meaning (R183, D14; log 21). -/
def execScw (rd rj : RegNum) (si14 : BitVec 14) (s : State) : Result :=
  let addr := atomicAddress s rj si14
  if misaligned addr 4 then .next (raise (.ale addr) s)
  else if s.llbit then
    if addr = s.lladdr then
      match accessRefusal s.platform .write addr.toNat 4 with
      | some r => .refused r
      | none =>
        if accessCached s.platform addr.toNat 4 then
          finishScw rd true (s.stored addr.toNat (storeBytes 4 (s.readGr rd)))
        else .refused (.llscUncached addr)
    else .refused (.scAddress addr s.lladdr)
  else finishScw rd false s

end Sys2Proof.Machine
end

