-- ==== Sys2Proof/Machine/Barrier.lean ====
section
/-! DEFINITION. Barriers (45_barrier.md). -/

namespace Sys2Proof.Machine

/-- DBAR: in one core only the pc advances, for every hint (R190, R191; log 19, 24). -/
def execDbar (_hint : BitVec 15) (s : State) : Result :=
  .next s.advance

/-- IBAR: every later fetch sees every store before it,
for every hint; otherwise only the pc advances (R192, R193; log 18, 19). -/
def execIbar (_hint : BitVec 15) (s : State) : Result :=
  .next ({ s with unsynced := [] } : State).advance

end Sys2Proof.Machine
end

