-- ==== Sys2Proof/Machine/Branch.lean ====
section
/-! DEFINITION. Transfers (42_branch.md). No delay slot, no flag (R152). -/

namespace Sys2Proof.Machine

/-- BEQ: taken when `x[rj]` is to `x[rd]` as equal (R141). -/
def execBeq (rj rd : RegNum) (offs16 : BitVec 16) (s : State) : Result :=
  branchIf (s.readGr rj == s.readGr rd) offs16 s

/-- BNE: taken when `x[rj]` is to `x[rd]` as not equal (R142). -/
def execBne (rj rd : RegNum) (offs16 : BitVec 16) (s : State) : Result :=
  branchIf (s.readGr rj != s.readGr rd) offs16 s

/-- BLT: taken when `x[rj]` is to `x[rd]` as less, signed (R143). -/
def execBlt (rj rd : RegNum) (offs16 : BitVec 16) (s : State) : Result :=
  branchIf (lessSigned (s.readGr rj) (s.readGr rd)) offs16 s

/-- BGE: taken when `x[rj]` is to `x[rd]` as greater or equal, signed (R144). -/
def execBge (rj rd : RegNum) (offs16 : BitVec 16) (s : State) : Result :=
  branchIf (!lessSigned (s.readGr rj) (s.readGr rd)) offs16 s

/-- BLTU: taken when `x[rj]` is to `x[rd]` as less, unsigned (R145). -/
def execBltu (rj rd : RegNum) (offs16 : BitVec 16) (s : State) : Result :=
  branchIf (lessUnsigned (s.readGr rj) (s.readGr rd)) offs16 s

/-- BGEU: taken when `x[rj]` is to `x[rd]` as greater or equal, unsigned (R146). -/
def execBgeu (rj rd : RegNum) (offs16 : BitVec 16) (s : State) : Result :=
  branchIf (!lessUnsigned (s.readGr rj) (s.readGr rd)) offs16 s

/-- B: `pc <- pc + sext_32({offs26, 2'b00})` (R147). -/
def execB (offs26 : BitVec 26) (s : State) : Result :=
  .next (s.setPc (s.pc + offset26 offs26))

/-- BL: as B, with `pc + 4` written to r1 (R148, R151). -/
def execBl (offs26 : BitVec 26) (s : State) : Result :=
  .next ((s.writeGr 1 (s.pc + 4)).setPc (s.pc + offset26 offs26))

/-- JIRL: to `x[rj] + sext_32({offs16, 2'b00})` by the old `x[rj]`, with `pc + 4` written to rd; the target is not checked here
(R149, R150). -/
def execJirl (rd rj : RegNum) (offs16 : BitVec 16) (s : State) : Result :=
  .next ((s.writeGr rd (s.pc + 4)).setPc (s.readGr rj + offset16 offs16))

end Sys2Proof.Machine
end

