-- ==== Sys2Proof/Machine/LoadStore.lean ====
section
/-! DEFINITION. Loads, stores, prefetch (43_load_store.md). -/

namespace Sys2Proof.Machine

/-- LD.B, sign-extended byte (R161). -/
def execLdb (rd rj : RegNum) (si12 : BitVec 12) (s : State) : Result :=
  loadTo rd (dataAddress s rj si12) 1 (fun read a => sext (memRead8 read a)) s

/-- LD.H, sign-extended halfword (R162). -/
def execLdh (rd rj : RegNum) (si12 : BitVec 12) (s : State) : Result :=
  loadTo rd (dataAddress s rj si12) 2 (fun read a => sext (memRead16 read a)) s

/-- LD.W, word (R163). -/
def execLdw (rd rj : RegNum) (si12 : BitVec 12) (s : State) : Result :=
  loadTo rd (dataAddress s rj si12) 4 memRead32 s

/-- LD.BU, zero-extended byte (R164). -/
def execLdbu (rd rj : RegNum) (si12 : BitVec 12) (s : State) : Result :=
  loadTo rd (dataAddress s rj si12) 1 (fun read a => zext (memRead8 read a)) s

/-- LD.HU, zero-extended halfword (R165). -/
def execLdhu (rd rj : RegNum) (si12 : BitVec 12) (s : State) : Result :=
  loadTo rd (dataAddress s rj si12) 2 (fun read a => zext (memRead16 read a)) s

/-- ST.B: bits 7:0 of `x[rd]` to memory (R166). -/
def execStb (rd rj : RegNum) (si12 : BitVec 12) (s : State) : Result :=
  storeFrom (dataAddress s rj si12) 1 (s.readGr rd) s

/-- ST.H: bits 15:0 of `x[rd]` to memory (R167). -/
def execSth (rd rj : RegNum) (si12 : BitVec 12) (s : State) : Result :=
  storeFrom (dataAddress s rj si12) 2 (s.readGr rd) s

/-- ST.W: `x[rd]` to memory (R168). -/
def execStw (rd rj : RegNum) (si12 : BitVec 12) (s : State) : Result :=
  storeFrom (dataAddress s rj si12) 4 (s.readGr rd) s

/-- PRELD: only the pc advances, for every hint and address (R171, D11; log 20). -/
def execPreld (_hint : BitVec 5) (_rj : RegNum) (_si12 : BitVec 12) (s : State) : Result :=
  .next s.advance

end Sys2Proof.Machine
end

