-- ==== Sys2Proof/Machine/Misc.lean ====
section
/-! DEFINITION. System call, breakpoint, counter reads (46_misc.md). -/

namespace Sys2Proof.Machine

/-- SYSCALL: takes the system call exception, at every level (R200, R227). -/
def execSyscall (code : BitVec 15) (s : State) : Result :=
  .next (raise (.sys code) s)

/-- BREAK: takes the breakpoint exception (R201, R227). -/
def execBrk (code : BitVec 15) (s : State) : Result :=
  .next (raise (.brk code) s)

/-- RDCNTVL.W: bits 31:0 of the Stable Counter (R203). What it holds at the read is free (R31; log 16). -/
def execRdcntvlw (rd : RegNum) (s : State) : Result :=
  writeAndAdvance rd (lowWord s.stableCounter) s

/-- RDCNTVH.W: bits 63:32 of the Stable Counter (R204; 90_conflicts.md C2). -/
def execRdcntvhw (rd : RegNum) (s : State) : Result :=
  writeAndAdvance rd (highWord s.stableCounter) s

/-- RDCNTID: the Counter ID, to the register of the rj field (R205). -/
def execRdcntid (rj : RegNum) (s : State) : Result :=
  writeAndAdvance rj s.counterId s

end Sys2Proof.Machine
end

