-- ==== Sys2Proof/Machine/Shift.lean ====
section
/-! DEFINITION. Shifts (41_shift.md). The amount is 0 to 31 (R130). -/

namespace Sys2Proof.Machine

/-- SLL.W: logical left shift by the low five bits of `x[rk]` (R131). -/
def execSllw (rd rj rk : RegNum) (s : State) : Result :=
  writeAndAdvance rd (s.readGr rj <<< shiftAmount (s.readGr rk)) s

/-- SRL.W: logical right shift by the low five bits of `x[rk]` (R132). -/
def execSrlw (rd rj rk : RegNum) (s : State) : Result :=
  writeAndAdvance rd (s.readGr rj >>> shiftAmount (s.readGr rk)) s

/-- SRA.W: arithmetic right shift by the low five bits of `x[rk]` (R133). -/
def execSraw (rd rj rk : RegNum) (s : State) : Result :=
  writeAndAdvance rd ((s.readGr rj).sshiftRight (shiftAmount (s.readGr rk))) s

/-- SLLI.W: logical left shift by the immediate (R134). -/
def execSlliw (rd rj : RegNum) (ui5 : BitVec 5) (s : State) : Result :=
  writeAndAdvance rd (s.readGr rj <<< ui5.toNat) s

/-- SRLI.W: logical right shift by the immediate (R135). -/
def execSrliw (rd rj : RegNum) (ui5 : BitVec 5) (s : State) : Result :=
  writeAndAdvance rd (s.readGr rj >>> ui5.toNat) s

/-- SRAI.W: arithmetic right shift by the immediate (R136). -/
def execSraiw (rd rj : RegNum) (ui5 : BitVec 5) (s : State) : Result :=
  writeAndAdvance rd ((s.readGr rj).sshiftRight ui5.toNat) s

end Sys2Proof.Machine
end

