-- ==== Sys2Proof/Syntax.lean ====
section
/-! DEFINITION. The instructions: one constructor per row of spec/opcode_table.json, operands in the assembly order of
30_encoding.md R91, immediates as the raw fields of the word (R77). NOP has no row: it is `andi 0 0 0` (R88). -/

namespace Sys2Proof

/-- The 56 basic integer instructions of LA32R (00_scope.md R3). -/
inductive Instr where
  -- arithmetic and logic (40_arithmetic.md)
  | addw (rd rj rk : RegNum)
  | subw (rd rj rk : RegNum)
  | addiw (rd rj : RegNum) (si12 : BitVec 12)
  | lu12iw (rd : RegNum) (si20 : BitVec 20)
  | slt (rd rj rk : RegNum)
  | sltu (rd rj rk : RegNum)
  | slti (rd rj : RegNum) (si12 : BitVec 12)
  | sltui (rd rj : RegNum) (si12 : BitVec 12)
  | pcaddu12i (rd : RegNum) (si20 : BitVec 20)
  | and (rd rj rk : RegNum)
  | or (rd rj rk : RegNum)
  | nor (rd rj rk : RegNum)
  | xor (rd rj rk : RegNum)
  | andi (rd rj : RegNum) (ui12 : BitVec 12)
  | ori (rd rj : RegNum) (ui12 : BitVec 12)
  | xori (rd rj : RegNum) (ui12 : BitVec 12)
  | mulw (rd rj rk : RegNum)
  | mulhw (rd rj rk : RegNum)
  | mulhwu (rd rj rk : RegNum)
  | divw (rd rj rk : RegNum)
  | modw (rd rj rk : RegNum)
  | divwu (rd rj rk : RegNum)
  | modwu (rd rj rk : RegNum)
  -- shifts (41_shift.md)
  | sllw (rd rj rk : RegNum)
  | srlw (rd rj rk : RegNum)
  | sraw (rd rj rk : RegNum)
  | slliw (rd rj : RegNum) (ui5 : BitVec 5)
  | srliw (rd rj : RegNum) (ui5 : BitVec 5)
  | sraiw (rd rj : RegNum) (ui5 : BitVec 5)
  -- transfers (42_branch.md); the conditional branches name rj first (R91)
  | beq (rj rd : RegNum) (offs16 : BitVec 16)
  | bne (rj rd : RegNum) (offs16 : BitVec 16)
  | blt (rj rd : RegNum) (offs16 : BitVec 16)
  | bge (rj rd : RegNum) (offs16 : BitVec 16)
  | bltu (rj rd : RegNum) (offs16 : BitVec 16)
  | bgeu (rj rd : RegNum) (offs16 : BitVec 16)
  | b (offs26 : BitVec 26)
  | bl (offs26 : BitVec 26)
  | jirl (rd rj : RegNum) (offs16 : BitVec 16)
  -- loads, stores, prefetch (43_load_store.md)
  | ldb (rd rj : RegNum) (si12 : BitVec 12)
  | ldh (rd rj : RegNum) (si12 : BitVec 12)
  | ldw (rd rj : RegNum) (si12 : BitVec 12)
  | ldbu (rd rj : RegNum) (si12 : BitVec 12)
  | ldhu (rd rj : RegNum) (si12 : BitVec 12)
  | stb (rd rj : RegNum) (si12 : BitVec 12)
  | sth (rd rj : RegNum) (si12 : BitVec 12)
  | stw (rd rj : RegNum) (si12 : BitVec 12)
  | preld (hint : BitVec 5) (rj : RegNum) (si12 : BitVec 12)
  -- atomic access (44_atomic.md)
  | llw (rd rj : RegNum) (si14 : BitVec 14)
  | scw (rd rj : RegNum) (si14 : BitVec 14)
  -- barriers (45_barrier.md)
  | dbar (hint : BitVec 15)
  | ibar (hint : BitVec 15)
  -- system call, breakpoint, counter reads (46_misc.md)
  | syscall (code : BitVec 15)
  | brk (code : BitVec 15)
  | rdcntvlw (rd : RegNum)
  | rdcntvhw (rd : RegNum)
  | rdcntid (rj : RegNum)
  deriving DecidableEq, Repr

end Sys2Proof
end

