-- ==== Sys2Proof/Machine/Dispatch.lean ====
section
/-! DEFINITION. One instruction executed: its meaning, by constructor. -/

namespace Sys2Proof.Machine

/-- Step 6 and 7 of the step list (10_state.md R26): the instruction's own rule, the pc included. -/
def exec (i : Instr) (s : State) : Host.Outcome State Fault Refusal :=
  match i with
  | .addw rd rj rk => Sys2Proof.Machine.execAddw rd rj rk s
  | .subw rd rj rk => Sys2Proof.Machine.execSubw rd rj rk s
  | .addiw rd rj si12 => Sys2Proof.Machine.execAddiw rd rj si12 s
  | .lu12iw rd si20 => Sys2Proof.Machine.execLu12iw rd si20 s
  | .slt rd rj rk => Sys2Proof.Machine.execSlt rd rj rk s
  | .sltu rd rj rk => Sys2Proof.Machine.execSltu rd rj rk s
  | .slti rd rj si12 => Sys2Proof.Machine.execSlti rd rj si12 s
  | .sltui rd rj si12 => Sys2Proof.Machine.execSltui rd rj si12 s
  | .pcaddu12i rd si20 => Sys2Proof.Machine.execPcaddu12i rd si20 s
  | .and rd rj rk => Sys2Proof.Machine.execAnd rd rj rk s
  | .or rd rj rk => Sys2Proof.Machine.execOr rd rj rk s
  | .nor rd rj rk => Sys2Proof.Machine.execNor rd rj rk s
  | .xor rd rj rk => Sys2Proof.Machine.execXor rd rj rk s
  | .andi rd rj ui12 => Sys2Proof.Machine.execAndi rd rj ui12 s
  | .ori rd rj ui12 => Sys2Proof.Machine.execOri rd rj ui12 s
  | .xori rd rj ui12 => Sys2Proof.Machine.execXori rd rj ui12 s
  | .mulw rd rj rk => Sys2Proof.Machine.execMulw rd rj rk s
  | .mulhw rd rj rk => Sys2Proof.Machine.execMulhw rd rj rk s
  | .mulhwu rd rj rk => Sys2Proof.Machine.execMulhwu rd rj rk s
  | .divw rd rj rk => Sys2Proof.Machine.execDivw rd rj rk s
  | .modw rd rj rk => Sys2Proof.Machine.execModw rd rj rk s
  | .divwu rd rj rk => Sys2Proof.Machine.execDivwu rd rj rk s
  | .modwu rd rj rk => Sys2Proof.Machine.execModwu rd rj rk s
  | .sllw rd rj rk => Sys2Proof.Machine.execSllw rd rj rk s
  | .srlw rd rj rk => Sys2Proof.Machine.execSrlw rd rj rk s
  | .sraw rd rj rk => Sys2Proof.Machine.execSraw rd rj rk s
  | .slliw rd rj ui5 => Sys2Proof.Machine.execSlliw rd rj ui5 s
  | .srliw rd rj ui5 => Sys2Proof.Machine.execSrliw rd rj ui5 s
  | .sraiw rd rj ui5 => Sys2Proof.Machine.execSraiw rd rj ui5 s
  | .beq rj rd offs16 => Sys2Proof.Machine.execBeq rj rd offs16 s
  | .bne rj rd offs16 => Sys2Proof.Machine.execBne rj rd offs16 s
  | .blt rj rd offs16 => Sys2Proof.Machine.execBlt rj rd offs16 s
  | .bge rj rd offs16 => Sys2Proof.Machine.execBge rj rd offs16 s
  | .bltu rj rd offs16 => Sys2Proof.Machine.execBltu rj rd offs16 s
  | .bgeu rj rd offs16 => Sys2Proof.Machine.execBgeu rj rd offs16 s
  | .b offs26 => Sys2Proof.Machine.execB offs26 s
  | .bl offs26 => Sys2Proof.Machine.execBl offs26 s
  | .jirl rd rj offs16 => Sys2Proof.Machine.execJirl rd rj offs16 s
  | .ldb rd rj si12 => Sys2Proof.Machine.execLdb rd rj si12 s
  | .ldh rd rj si12 => Sys2Proof.Machine.execLdh rd rj si12 s
  | .ldw rd rj si12 => Sys2Proof.Machine.execLdw rd rj si12 s
  | .ldbu rd rj si12 => Sys2Proof.Machine.execLdbu rd rj si12 s
  | .ldhu rd rj si12 => Sys2Proof.Machine.execLdhu rd rj si12 s
  | .stb rd rj si12 => Sys2Proof.Machine.execStb rd rj si12 s
  | .sth rd rj si12 => Sys2Proof.Machine.execSth rd rj si12 s
  | .stw rd rj si12 => Sys2Proof.Machine.execStw rd rj si12 s
  | .preld hint rj si12 => Sys2Proof.Machine.execPreld hint rj si12 s
  | .llw rd rj si14 => Sys2Proof.Machine.execLlw rd rj si14 s
  | .scw rd rj si14 => Sys2Proof.Machine.execScw rd rj si14 s
  | .dbar hint => Sys2Proof.Machine.execDbar hint s
  | .ibar hint => Sys2Proof.Machine.execIbar hint s
  | .syscall code => Sys2Proof.Machine.execSyscall code s
  | .brk code => Sys2Proof.Machine.execBrk code s
  | .rdcntvlw rd => Sys2Proof.Machine.execRdcntvlw rd s
  | .rdcntvhw rd => Sys2Proof.Machine.execRdcntvhw rd s
  | .rdcntid rj => Sys2Proof.Machine.execRdcntid rj s

end Sys2Proof.Machine
end

