-- ==== Sys2Proof/Machine/Environment.lean ====
section
/-! DEFINITION. What acts on the state between two steps of the core (10_state.md R26 item 1): the environment of
00_scope.md R10. -/

namespace Sys2Proof.Machine

/-- The address belongs to the word at LLaddr (R186 item 1). -/
def inReservation (lladdr : Word) (a : Nat) : Bool := a / 4 == lladdr.toNat / 4

/-- The store writes a byte at the address. -/
def ForeignStore.covers (c : ForeignStore) (a : Nat) : Bool := decide (c.addr ≤ a) && decide (a < c.addr + c.bytes.length)

/-- The store is an access of R54: one, two or four bytes at a multiple of their number. -/
def ForeignStore.isAccess (c : ForeignStore) : Bool :=
  (c.bytes.length == 1 || c.bytes.length == 2 || c.bytes.length == 4) && c.addr % c.bytes.length == 0

/-- The store is made: it is an access, and every byte it writes can be written, in storage or at a device. -/
def ForeignStore.arrives (p : Config.Platform) (c : ForeignStore) : Bool :=
  c.isAccess && accessRefusal p .write c.addr c.bytes.length == none

/-- One store of another agent: it is made whole or not at all (R54), as one store that a fetch may miss, and it clears LLbit
when it falls in the word at LLaddr, whether storage or a device answers there (R186 item 1; logs 17, 36). -/
def foreignWrite (s : State) (c : ForeignStore) : State :=
  if c.arrives s.platform then { s.store c.addr c.bytes with llbit := s.llbit && !inReservation s.lladdr c.addr } else s

/-- The stores of other agents before this step, in their order. -/
def foreignWrites (s : State) (stores : List ForeignStore) : State := stores.foldl foreignWrite s

/-- What the environment does before a step of the core: the writes of other agents that arrive now, `ticks` of the Stable
Counter (R31), and a clearing of LLbit if it chooses so; it never sets LLbit (R186 item 2). -/
def environmentWith (clears : Bool) (ticks : DWord) (s : State) : State :=
  let t := foreignWrites s (s.incoming.headD [])
  { t with
    llbit := t.llbit && !clears
    stableCounter := s.stableCounter + ticks
    incoming := s.incoming.tail
    draws := s.draws + 1 }

/-- The environment with its two choices free (logs 15, 16). -/
def environment (s : State) : State :=
  environmentWith (Config.clearsLLbit s.draws) (Config.counterTicks s.draws) s

end Sys2Proof.Machine
end

