-- ==== Sys2Proof/WellFormed.lean ====
section
/-! DEFINITION. Which terms of `Instr` have a word of their own. Every field has the width of its place in the word, so
every term but one shape has one. -/

namespace Sys2Proof

/-- An instruction whose word decodes back to it. `rdcntid r0` has none: its word 0x00006000 is the word of
`rdcntvl.w r0` and decodes as that (30_encoding.md R79; log 32). -/
def Instr.wf : Instr → Bool
  | .rdcntid rj => rj != 0
  | .addw _ _ _ | .subw _ _ _ | .addiw _ _ _ | .lu12iw _ _ | .slt _ _ _ | .sltu _ _ _ | .slti _ _ _ | .sltui _ _ _
  | .pcaddu12i _ _ | .and _ _ _ | .or _ _ _ | .nor _ _ _ | .xor _ _ _ | .andi _ _ _ | .ori _ _ _ | .xori _ _ _
  | .mulw _ _ _ | .mulhw _ _ _ | .mulhwu _ _ _ | .divw _ _ _ | .modw _ _ _ | .divwu _ _ _ | .modwu _ _ _
  | .sllw _ _ _ | .srlw _ _ _ | .sraw _ _ _ | .slliw _ _ _ | .srliw _ _ _ | .sraiw _ _ _
  | .beq _ _ _ | .bne _ _ _ | .blt _ _ _ | .bge _ _ _ | .bltu _ _ _ | .bgeu _ _ _ | .b _ | .bl _ | .jirl _ _ _
  | .ldb _ _ _ | .ldh _ _ _ | .ldw _ _ _ | .ldbu _ _ _ | .ldhu _ _ _ | .stb _ _ _ | .sth _ _ _ | .stw _ _ _
  | .preld _ _ _ | .llw _ _ _ | .scw _ _ _ | .dbar _ | .ibar _ | .syscall _ | .brk _ | .rdcntvlw _ | .rdcntvhw _ => true

end Sys2Proof
end

