-- ==== Sys2Proof/Decode.lean ====
section
/-! DEFINITION. Words to instructions and back (30_encoding.md). Every bit position here is the spec's rule R73 to R80,
which the spec itself marks as general knowledge (log 1). The decoder cuts the word level by level at the places R72
names; the encoder writes the formats of R75 and R76; `Instr.row` is the opcode table R78 as it stands. -/

namespace Sys2Proof

/-- Why bytes are no instruction of this spec. `unlisted`: a word of no row of R78 (R86). `truncated`: fewer than the 4
bytes every instruction has (R70). -/
inductive DecodeError where
  | unlisted (word : Word)
  | truncated
  deriving DecidableEq, Repr

/-! ## Words and bytes -/

/-- The four bytes of a word, the byte of the lowest address first (R44, R45). -/
def wordBytes (w : Word) : List Byte :=
  [w.extractLsb' 0 8, w.extractLsb' 8 8, w.extractLsb' 16 8, w.extractLsb' 24 8]

/-- The word whose byte at the lowest address is `b0` (R44). -/
def wordOfBytes (b0 b1 b2 b3 : Byte) : Word := b3 ++ b2 ++ b1 ++ b0

/-! ## Decoding -/

/-- Words with `inst[31:26] = 0` and `inst[25:22] = 0`: the 3R format, SYSCALL, BREAK and the counter reads, told apart
by `inst[21:15]` (R78). The RDTIME forms with two registers are no LA32R instructions (R80). -/
def decodeThreeReg (w : Word) : Option Instr :=
  let rd := w.extractLsb' 0 5
  let rj := w.extractLsb' 5 5
  let rk := w.extractLsb' 10 5
  match (w.extractLsb' 15 7).toNat with
  | 0x00 =>
    match rk.toNat with
    | 0x18 => if rj = 0 then some (.rdcntvlw rd) else if rd = 0 then some (.rdcntid rj) else none
    | 0x19 => if rj = 0 then some (.rdcntvhw rd) else none
    | _ => none
  | 0x20 => some (.addw rd rj rk)
  | 0x22 => some (.subw rd rj rk)
  | 0x24 => some (.slt rd rj rk)
  | 0x25 => some (.sltu rd rj rk)
  | 0x28 => some (.nor rd rj rk)
  | 0x29 => some (.and rd rj rk)
  | 0x2A => some (.or rd rj rk)
  | 0x2B => some (.xor rd rj rk)
  | 0x2E => some (.sllw rd rj rk)
  | 0x2F => some (.srlw rd rj rk)
  | 0x30 => some (.sraw rd rj rk)
  | 0x38 => some (.mulw rd rj rk)
  | 0x39 => some (.mulhw rd rj rk)
  | 0x3A => some (.mulhwu rd rj rk)
  | 0x40 => some (.divw rd rj rk)
  | 0x41 => some (.modw rd rj rk)
  | 0x42 => some (.divwu rd rj rk)
  | 0x43 => some (.modwu rd rj rk)
  | 0x54 => some (.brk (w.extractLsb' 0 15))
  | 0x56 => some (.syscall (w.extractLsb' 0 15))
  | _ => none

/-- Words with `inst[31:26] = 0` and `inst[25:22] = 1`: the shifts by an immediate, layout 2RI5 (R76, R78). -/
def decodeShiftImm (w : Word) : Option Instr :=
  let rd := w.extractLsb' 0 5
  let rj := w.extractLsb' 5 5
  let ui5 := w.extractLsb' 10 5
  match (w.extractLsb' 15 7).toNat with
  | 0x01 => some (.slliw rd rj ui5)
  | 0x09 => some (.srliw rd rj ui5)
  | 0x11 => some (.sraiw rd rj ui5)
  | _ => none

/-- Words with `inst[31:26] = 0`: by `inst[25:22]`, the 12-bit immediates or one of the two groups above (R78). -/
def decodeArith (w : Word) : Option Instr :=
  let rd := w.extractLsb' 0 5
  let rj := w.extractLsb' 5 5
  let i12 := w.extractLsb' 10 12
  match (w.extractLsb' 22 4).toNat with
  | 0x0 => decodeThreeReg w
  | 0x1 => decodeShiftImm w
  | 0x8 => some (.slti rd rj i12)
  | 0x9 => some (.sltui rd rj i12)
  | 0xA => some (.addiw rd rj i12)
  | 0xD => some (.andi rd rj i12)
  | 0xE => some (.ori rd rj i12)
  | 0xF => some (.xori rd rj i12)
  | _ => none

/-- Words with `inst[31:26] = 8`: LL.W and SC.W by `inst[25:24]`, format 2RI14 (R75, R78). -/
def decodeAtomic (w : Word) : Option Instr :=
  match (w.extractLsb' 24 2).toNat with
  | 0 => some (.llw (w.extractLsb' 0 5) (w.extractLsb' 5 5) (w.extractLsb' 10 14))
  | 1 => some (.scw (w.extractLsb' 0 5) (w.extractLsb' 5 5) (w.extractLsb' 10 14))
  | _ => none

/-- Words with `inst[31:26] = 10`: loads, stores and PRELD by `inst[25:22]` (R78). -/
def decodeLoadStore (w : Word) : Option Instr :=
  let rd := w.extractLsb' 0 5
  let rj := w.extractLsb' 5 5
  let si12 := w.extractLsb' 10 12
  match (w.extractLsb' 22 4).toNat with
  | 0x0 => some (.ldb rd rj si12)
  | 0x1 => some (.ldh rd rj si12)
  | 0x2 => some (.ldw rd rj si12)
  | 0x4 => some (.stb rd rj si12)
  | 0x5 => some (.sth rd rj si12)
  | 0x6 => some (.stw rd rj si12)
  | 0x8 => some (.ldbu rd rj si12)
  | 0x9 => some (.ldhu rd rj si12)
  | 0xB => some (.preld rd rj si12)
  | _ => none

/-- Words with `inst[31:26] = 14`: DBAR and IBAR by `inst[25:15]`, layout I15 (R76, R78). -/
def decodeBarrier (w : Word) : Option Instr :=
  match (w.extractLsb' 15 11).toNat with
  | 0x0E4 => some (.dbar (w.extractLsb' 0 15))
  | 0x0E5 => some (.ibar (w.extractLsb' 0 15))
  | _ => none

/-- The `offs26` field: its low 16 bits stand in `inst[25:10]`, its high 10 bits in `inst[9:0]` (R77). -/
def fieldOffs26 (w : Word) : BitVec 26 := w.extractLsb' 0 10 ++ w.extractLsb' 10 16

/-- The instruction of a word, by `inst[31:26]` first; none for a word of no row of R78. -/
def decodeFields (w : Word) : Option Instr :=
  let rd := w.extractLsb' 0 5
  let rj := w.extractLsb' 5 5
  let offs16 := w.extractLsb' 10 16
  match (w.extractLsb' 26 6).toNat with
  | 0x00 => decodeArith w
  | 0x05 => if w.extractLsb' 25 1 = 0 then some (.lu12iw rd (w.extractLsb' 5 20)) else none
  | 0x07 => if w.extractLsb' 25 1 = 0 then some (.pcaddu12i rd (w.extractLsb' 5 20)) else none
  | 0x08 => decodeAtomic w
  | 0x0A => decodeLoadStore w
  | 0x0E => decodeBarrier w
  | 0x13 => some (.jirl rd rj offs16)
  | 0x14 => some (.b (fieldOffs26 w))
  | 0x15 => some (.bl (fieldOffs26 w))
  | 0x16 => some (.beq rj rd offs16)
  | 0x17 => some (.bne rj rd offs16)
  | 0x18 => some (.blt rj rd offs16)
  | 0x19 => some (.bge rj rd offs16)
  | 0x1A => some (.bltu rj rd offs16)
  | 0x1B => some (.bgeu rj rd offs16)
  | _ => none

/-- The instruction of a word, or the word itself as unlisted (R86). -/
def decodeWord (w : Word) : Except DecodeError Instr :=
  match decodeFields w with
  | some i => .ok i
  | none => .error (.unlisted w)

/-- Decoding a run of bytes: the first instruction and the bytes after it. Total on any bytes; every instruction is 4
bytes long (R70), little-endian (R45). -/
def decode : List Byte → Except DecodeError (Instr × List Byte)
  | b0 :: b1 :: b2 :: b3 :: rest =>
    match decodeWord (wordOfBytes b0 b1 b2 b3) with
    | .ok i => .ok (i, rest)
    | .error e => .error e
  | _ => .error .truncated

/-- The instruction the decoder reads from an instruction whose bits are `w`, numbered as the opcode table numbers them;
the bits from `nbits` on are 0. -/
def decodeTableWord (nbits w : Nat) : Option Instr :=
  match decode (wordBytes (BitVec.ofNat 32 (w % 2 ^ nbits))) with
  | .ok (i, _) => some i
  | .error _ => none

/-! ## Encoding -/

/-- Formats 3R, and layout 2RI5 with `ui5` in the place of rk (R75, R76). -/
def enc3R (op : BitVec 17) (rk rj rd : BitVec 5) : Word := op ++ rk ++ rj ++ rd

/-- Format 2RI12; PRELD has its hint in the place of rd (R75, R76). -/
def enc2RI12 (op : BitVec 10) (i12 : BitVec 12) (rj rd : BitVec 5) : Word := op ++ i12 ++ rj ++ rd

/-- Format 2RI14 (R75). -/
def enc2RI14 (op : BitVec 8) (i14 : BitVec 14) (rj rd : BitVec 5) : Word := op ++ i14 ++ rj ++ rd

/-- Format 2RI16 (R75). -/
def enc2RI16 (op : BitVec 6) (i16 : BitVec 16) (rj rd : BitVec 5) : Word := op ++ i16 ++ rj ++ rd

/-- Layout 1RI20 (R76). -/
def enc1RI20 (op : BitVec 7) (i20 : BitVec 20) (rd : BitVec 5) : Word := op ++ i20 ++ rd

/-- Format I26, the field in two pieces (R75, R77). -/
def encI26 (op : BitVec 6) (i26 : BitVec 26) : Word := op ++ i26.extractLsb' 0 16 ++ i26.extractLsb' 16 10

/-- Layout I15 (R76). -/
def encI15 (op : BitVec 17) (i15 : BitVec 15) : Word := op ++ i15

/-- Format 2R (R75), used with one register 0 (R76, R80). -/
def enc2R (op : BitVec 22) (rj rd : BitVec 5) : Word := op ++ rj ++ rd

/-- The word of an instruction (R78). -/
def encode : Instr → Word
  | .addw rd rj rk => enc3R 0x20#17 rk rj rd
  | .subw rd rj rk => enc3R 0x22#17 rk rj rd
  | .addiw rd rj si12 => enc2RI12 0xA#10 si12 rj rd
  | .lu12iw rd si20 => enc1RI20 0xA#7 si20 rd
  | .slt rd rj rk => enc3R 0x24#17 rk rj rd
  | .sltu rd rj rk => enc3R 0x25#17 rk rj rd
  | .slti rd rj si12 => enc2RI12 0x8#10 si12 rj rd
  | .sltui rd rj si12 => enc2RI12 0x9#10 si12 rj rd
  | .pcaddu12i rd si20 => enc1RI20 0xE#7 si20 rd
  | .and rd rj rk => enc3R 0x29#17 rk rj rd
  | .or rd rj rk => enc3R 0x2A#17 rk rj rd
  | .nor rd rj rk => enc3R 0x28#17 rk rj rd
  | .xor rd rj rk => enc3R 0x2B#17 rk rj rd
  | .andi rd rj ui12 => enc2RI12 0xD#10 ui12 rj rd
  | .ori rd rj ui12 => enc2RI12 0xE#10 ui12 rj rd
  | .xori rd rj ui12 => enc2RI12 0xF#10 ui12 rj rd
  | .mulw rd rj rk => enc3R 0x38#17 rk rj rd
  | .mulhw rd rj rk => enc3R 0x39#17 rk rj rd
  | .mulhwu rd rj rk => enc3R 0x3A#17 rk rj rd
  | .divw rd rj rk => enc3R 0x40#17 rk rj rd
  | .modw rd rj rk => enc3R 0x41#17 rk rj rd
  | .divwu rd rj rk => enc3R 0x42#17 rk rj rd
  | .modwu rd rj rk => enc3R 0x43#17 rk rj rd
  | .sllw rd rj rk => enc3R 0x2E#17 rk rj rd
  | .srlw rd rj rk => enc3R 0x2F#17 rk rj rd
  | .sraw rd rj rk => enc3R 0x30#17 rk rj rd
  | .slliw rd rj ui5 => enc3R 0x81#17 ui5 rj rd
  | .srliw rd rj ui5 => enc3R 0x89#17 ui5 rj rd
  | .sraiw rd rj ui5 => enc3R 0x91#17 ui5 rj rd
  | .beq rj rd offs16 => enc2RI16 0x16#6 offs16 rj rd
  | .bne rj rd offs16 => enc2RI16 0x17#6 offs16 rj rd
  | .blt rj rd offs16 => enc2RI16 0x18#6 offs16 rj rd
  | .bge rj rd offs16 => enc2RI16 0x19#6 offs16 rj rd
  | .bltu rj rd offs16 => enc2RI16 0x1A#6 offs16 rj rd
  | .bgeu rj rd offs16 => enc2RI16 0x1B#6 offs16 rj rd
  | .b offs26 => encI26 0x14#6 offs26
  | .bl offs26 => encI26 0x15#6 offs26
  | .jirl rd rj offs16 => enc2RI16 0x13#6 offs16 rj rd
  | .ldb rd rj si12 => enc2RI12 0xA0#10 si12 rj rd
  | .ldh rd rj si12 => enc2RI12 0xA1#10 si12 rj rd
  | .ldw rd rj si12 => enc2RI12 0xA2#10 si12 rj rd
  | .ldbu rd rj si12 => enc2RI12 0xA8#10 si12 rj rd
  | .ldhu rd rj si12 => enc2RI12 0xA9#10 si12 rj rd
  | .stb rd rj si12 => enc2RI12 0xA4#10 si12 rj rd
  | .sth rd rj si12 => enc2RI12 0xA5#10 si12 rj rd
  | .stw rd rj si12 => enc2RI12 0xA6#10 si12 rj rd
  | .preld hint rj si12 => enc2RI12 0xAB#10 si12 rj hint
  | .llw rd rj si14 => enc2RI14 0x20#8 si14 rj rd
  | .scw rd rj si14 => enc2RI14 0x21#8 si14 rj rd
  | .dbar hint => encI15 0x70E4#17 hint
  | .ibar hint => encI15 0x70E5#17 hint
  | .syscall code => encI15 0x56#17 code
  | .brk code => encI15 0x54#17 code
  | .rdcntvlw rd => enc2R 0x18#22 0 rd
  | .rdcntvhw rd => enc2R 0x19#22 0 rd
  | .rdcntid rj => enc2R 0x18#22 rj 0

/-- The bytes of an instruction as they lie in memory (R45). -/
def encodeBytes (i : Instr) : List Byte := wordBytes (encode i)

/-! ## The opcode table -/

/-- One row of the opcode table R78: a word belongs to it when `word &&& mask = pattern` (the table's `match`). -/
structure OpcodeRow where
  mnemonic : String
  pattern : Word
  mask : Word
  deriving DecidableEq, Repr

/-- The row of the opcode table an instruction stands for (R78, the numbers as they are written there). -/
def Instr.row : Instr → OpcodeRow
  | .addw _ _ _ => ⟨"ADD.W", 0x00100000, 0xFFFF8000⟩
  | .subw _ _ _ => ⟨"SUB.W", 0x00110000, 0xFFFF8000⟩
  | .addiw _ _ _ => ⟨"ADDI.W", 0x02800000, 0xFFC00000⟩
  | .lu12iw _ _ => ⟨"LU12I.W", 0x14000000, 0xFE000000⟩
  | .slt _ _ _ => ⟨"SLT", 0x00120000, 0xFFFF8000⟩
  | .sltu _ _ _ => ⟨"SLTU", 0x00128000, 0xFFFF8000⟩
  | .slti _ _ _ => ⟨"SLTI", 0x02000000, 0xFFC00000⟩
  | .sltui _ _ _ => ⟨"SLTUI", 0x02400000, 0xFFC00000⟩
  | .pcaddu12i _ _ => ⟨"PCADDU12I", 0x1C000000, 0xFE000000⟩
  | .and _ _ _ => ⟨"AND", 0x00148000, 0xFFFF8000⟩
  | .or _ _ _ => ⟨"OR", 0x00150000, 0xFFFF8000⟩
  | .nor _ _ _ => ⟨"NOR", 0x00140000, 0xFFFF8000⟩
  | .xor _ _ _ => ⟨"XOR", 0x00158000, 0xFFFF8000⟩
  | .andi _ _ _ => ⟨"ANDI", 0x03400000, 0xFFC00000⟩
  | .ori _ _ _ => ⟨"ORI", 0x03800000, 0xFFC00000⟩
  | .xori _ _ _ => ⟨"XORI", 0x03C00000, 0xFFC00000⟩
  | .mulw _ _ _ => ⟨"MUL.W", 0x001C0000, 0xFFFF8000⟩
  | .mulhw _ _ _ => ⟨"MULH.W", 0x001C8000, 0xFFFF8000⟩
  | .mulhwu _ _ _ => ⟨"MULH.WU", 0x001D0000, 0xFFFF8000⟩
  | .divw _ _ _ => ⟨"DIV.W", 0x00200000, 0xFFFF8000⟩
  | .modw _ _ _ => ⟨"MOD.W", 0x00208000, 0xFFFF8000⟩
  | .divwu _ _ _ => ⟨"DIV.WU", 0x00210000, 0xFFFF8000⟩
  | .modwu _ _ _ => ⟨"MOD.WU", 0x00218000, 0xFFFF8000⟩
  | .sllw _ _ _ => ⟨"SLL.W", 0x00170000, 0xFFFF8000⟩
  | .srlw _ _ _ => ⟨"SRL.W", 0x00178000, 0xFFFF8000⟩
  | .sraw _ _ _ => ⟨"SRA.W", 0x00180000, 0xFFFF8000⟩
  | .slliw _ _ _ => ⟨"SLLI.W", 0x00408000, 0xFFFF8000⟩
  | .srliw _ _ _ => ⟨"SRLI.W", 0x00448000, 0xFFFF8000⟩
  | .sraiw _ _ _ => ⟨"SRAI.W", 0x00488000, 0xFFFF8000⟩
  | .beq _ _ _ => ⟨"BEQ", 0x58000000, 0xFC000000⟩
  | .bne _ _ _ => ⟨"BNE", 0x5C000000, 0xFC000000⟩
  | .blt _ _ _ => ⟨"BLT", 0x60000000, 0xFC000000⟩
  | .bge _ _ _ => ⟨"BGE", 0x64000000, 0xFC000000⟩
  | .bltu _ _ _ => ⟨"BLTU", 0x68000000, 0xFC000000⟩
  | .bgeu _ _ _ => ⟨"BGEU", 0x6C000000, 0xFC000000⟩
  | .b _ => ⟨"B", 0x50000000, 0xFC000000⟩
  | .bl _ => ⟨"BL", 0x54000000, 0xFC000000⟩
  | .jirl _ _ _ => ⟨"JIRL", 0x4C000000, 0xFC000000⟩
  | .ldb _ _ _ => ⟨"LD.B", 0x28000000, 0xFFC00000⟩
  | .ldh _ _ _ => ⟨"LD.H", 0x28400000, 0xFFC00000⟩
  | .ldw _ _ _ => ⟨"LD.W", 0x28800000, 0xFFC00000⟩
  | .ldbu _ _ _ => ⟨"LD.BU", 0x2A000000, 0xFFC00000⟩
  | .ldhu _ _ _ => ⟨"LD.HU", 0x2A400000, 0xFFC00000⟩
  | .stb _ _ _ => ⟨"ST.B", 0x29000000, 0xFFC00000⟩
  | .sth _ _ _ => ⟨"ST.H", 0x29400000, 0xFFC00000⟩
  | .stw _ _ _ => ⟨"ST.W", 0x29800000, 0xFFC00000⟩
  | .preld _ _ _ => ⟨"PRELD", 0x2AC00000, 0xFFC00000⟩
  | .llw _ _ _ => ⟨"LL.W", 0x20000000, 0xFF000000⟩
  | .scw _ _ _ => ⟨"SC.W", 0x21000000, 0xFF000000⟩
  | .dbar _ => ⟨"DBAR", 0x38720000, 0xFFFF8000⟩
  | .ibar _ => ⟨"IBAR", 0x38728000, 0xFFFF8000⟩
  | .syscall _ => ⟨"SYSCALL", 0x002B0000, 0xFFFF8000⟩
  | .brk _ => ⟨"BREAK", 0x002A0000, 0xFFFF8000⟩
  | .rdcntvlw _ => ⟨"RDCNTVL.W", 0x00006000, 0xFFFFFFE0⟩
  | .rdcntvhw _ => ⟨"RDCNTVH.W", 0x00006400, 0xFFFFFFE0⟩
  | .rdcntid _ => ⟨"RDCNTID", 0x00006000, 0xFFFFFC1F⟩

/-- The 56 rows of the opcode table, in its order. -/
def opcodeRows : List OpcodeRow :=
  List.map Instr.row [
    .addw 0 0 0, .subw 0 0 0, .addiw 0 0 0, .lu12iw 0 0, .slt 0 0 0, .sltu 0 0 0, .slti 0 0 0, .sltui 0 0 0,
    .pcaddu12i 0 0, .and 0 0 0, .or 0 0 0, .nor 0 0 0, .xor 0 0 0, .andi 0 0 0, .ori 0 0 0, .xori 0 0 0, .mulw 0 0
    0, .mulhw 0 0 0, .mulhwu 0 0 0, .divw 0 0 0, .modw 0 0 0, .divwu 0 0 0, .modwu 0 0 0, .sllw 0 0 0, .srlw 0 0
    0, .sraw 0 0 0, .slliw 0 0 0, .srliw 0 0 0, .sraiw 0 0 0, .beq 0 0 0, .bne 0 0 0, .blt 0 0 0, .bge 0 0 0,
    .bltu 0 0 0, .bgeu 0 0 0, .b 0, .bl 0, .jirl 0 0 0, .ldb 0 0 0, .ldh 0 0 0, .ldw 0 0 0, .ldbu 0 0 0, .ldhu 0 0
    0, .stb 0 0 0, .sth 0 0 0, .stw 0 0 0, .preld 0 0 0, .llw 0 0 0, .scw 0 0 0, .dbar 0, .ibar 0, .syscall 0,
    .brk 0, .rdcntvlw 0, .rdcntvhw 0, .rdcntid 0]

end Sys2Proof
end

