-- ==== Sys2Proof/Machine/Fetch.lean ====
section
/-! DEFINITION. Fetching an instruction word (20_memory.md R45, R52, R64). -/

namespace Sys2Proof.Machine

/-- The byte an unsynchronised store overwrote at an address, if it wrote there. -/
def UnsyncedStore.oldByte (u : UnsyncedStore) (a : Nat) : Option Byte :=
  if u.addr ≤ a then u.old[a - u.addr]? else none

/-- The byte a fetch sees. `current` is the byte with all the stores done. Walking back from the newest store: the fetch
sees a store or misses it (a free choice for each store, so that one store is seen whole or not at all, R54), and where it
misses one it sees what was there before, by the same rule (R64: the old or the new bytes; log 18). -/
def fetchByteFrom (draw a : Nat) (current : Byte) : List UnsyncedStore → Byte
  | [] => current
  | u :: rest =>
    match u.oldByte a with
    | none => fetchByteFrom draw a current rest
    | some old => if Config.fetchSees draw rest.length then current else fetchByteFrom draw a old rest

/-- The byte the fetch of this step sees at an address: a free one where a device answers (R50; log 36). -/
def fetchByte (s : State) (a : Nat) : Byte :=
  if deviceAt s.platform a then Config.deviceFetch s.draws a
  else fetchByteFrom s.draws a (Memory.read s.mem a) s.unsynced

/-- The word at the pc, little-endian (R45), where it is in the map; otherwise why there is none (R229). -/
def fetchWord (s : State) : Except Refusal Word :=
  let a := s.pc.toNat
  match accessRefusal s.platform .read a 4 with
  | some r => .error r
  | none => .ok (wordOfBytes (fetchByte s a) (fetchByte s (a + 1)) (fetchByte s (a + 2)) (fetchByte s (a + 3)))

/-- A fetch address that is no multiple of 4 (R52). -/
def pcMisaligned (s : State) : Bool := misaligned s.pc 4

/-- `n` bytes from an address on have one in the word at the pc. -/
def touchesWordAt (pc : Word) (a n : Nat) : Bool := decide (a < pc.toNat + 4) && decide (pc.toNat < a + n)

end Sys2Proof.Machine
end

