-- ==== Sys2Proof/Machine/Execute.lean ====
section
/-! DEFINITION. From a fetched word to its effect (10_state.md R26, steps 4 to 7). -/

namespace Sys2Proof.Machine

/-- Decode the fetched word and execute it. A word of no row of the table raises INE when the platform lists it, and has no
meaning otherwise (R86, R222; log 22). -/
def decodeAndExec (w : Word) (s : State) : Result :=
  match decodeWord w with
  | .ok i => exec i s
  | .error _ => if w ∈ s.platform.ineWords then .next (raise (.ine w) s) else .refused (.unlisted w)

/-- The core's own part of a step: ADEF for a misaligned pc, before anything is fetched (R27); then fetch, decode, execute
(R26, R228; log 28). -/
def fetchAndExec (s : State) : Result :=
  if pcMisaligned s then .next (raise (.adef s.pc) s)
  else
    match fetchWord s with
    | .error r => .refused r
    | .ok w => decodeAndExec w s

/-- One step of a run that goes on: a platform with a reserved MAT value (R47, D20, U6; log 10) or with an exposed
read-sensitive device (R269, U17; log 35) is refused; else the environment acts, and then the core (R26). -/
def runStep (s : State) : Result :=
  match platformRefusal s.platform with
  | some r => .refused r
  | none => fetchAndExec (environment s)

/-- What arrives before the next step, less the stores to the word at the pc. -/
def withoutWritesAt (pc : Word) : List (List ForeignStore) → List (List ForeignStore)
  | [] => []
  | now :: later => now.filter (fun c => !touchesWordAt pc c.addr c.bytes.length) :: later

end Sys2Proof.Machine
end

