-- ==== Sys2Proof/Machine/Step.lean ====
section
/-! DEFINITION. One step of the machine (10_state.md R26), and the load of one word where the next step fetches. -/

namespace Sys2Proof.Machine

/-- One step: nothing more once a trap has ended the run (R231); else the environment acts, and then the core, on a
platform the model admits. -/
def step (s : State) : Host.Outcome State Fault Refusal :=
  match s.trap with
  | some t => .fault (.trapped t)
  | none => runStep s

/-- The state with an instruction stored at the pc, so that the next step fetches and runs it: the word in memory, no
unsynchronised or arriving write over it, and no trap that has ended the run. It stands for the load of a program (R231;
log 31). -/
def State.withFetchWord (s : State) (nbits w : Nat) : State :=
  { s with
    mem := Memory.writeBytes s.mem s.pc.toNat (wordBytes (BitVec.ofNat 32 (w % 2 ^ nbits)))
    unsynced := s.unsynced.filter (fun u => !touchesWordAt s.pc u.addr u.old.length)
    incoming := withoutWritesAt s.pc s.incoming
    trap := none }

end Sys2Proof.Machine
end

