-- ==== Sys2Proof/Safety.lean ====
section
/-! DEFINITION. The terms claims are made in: what an access needs, what an instruction may leave changed, what it names,
the invariant of the machine. -/

namespace Sys2Proof.Safety

open Sys2Proof.Machine

/-! ## What an access needs -/

/-- The region holds a device whose reads have side effects, in coherent cached space, or in strongly-ordered uncached
space that a speculative fetch can reach (R50, R269, U17). -/
def Exposed (r : Config.Region) : Prop :=
  (∃ fetchable, r.mat = 1 ∧ r.backing = .device true fetchable) ∨ (r.mat = 0 ∧ r.backing = .device true true)

/-- The platform is one the model admits: every region's MAT is SUC or CC (R47, U6), and none exposes a read-sensitive
device (R269, U17). -/
def Configured (p : Config.Platform) : Prop := ∀ r ∈ p.regions, matOfField r.mat ≠ none ∧ ¬Exposed r

/-- `n` bytes from an address on can be read or written: each is in the map, at most ADDR_MAX, of type SUC or CC, and a
device's or storage, which for a write is not read-only (R41, R47, R50, R229). -/
def Accessible (p : Config.Platform) (kind : AccessKind) (a n : Nat) : Prop :=
  ∀ k, k < n → byteRefusal p kind (a + k) = none

/-- `n` bytes from an address on are storage, of type SUC or CC, that can only be read (R229). -/
def ReadOnly (p : Config.Platform) (a n : Nat) : Prop :=
  ∀ k, k < n → ∃ r, regionAt p (a + k) = some r ∧ matOfField r.mat ≠ none ∧ r.backing = .readOnly

/-- None of `n` bytes from an address on is a device's. -/
def InStorage (p : Config.Platform) (a n : Nat) : Prop := ∀ k, k < n → deviceAt p (a + k) = false

/-- `n` bytes from an address on are coherent cached (R47). -/
def Cached (p : Config.Platform) (a n : Nat) : Prop := ∀ k, k < n → byteCached p (a + k) = true

/-- The address is a multiple of the access size (R53). -/
def Aligned (a : Word) (n : Nat) : Prop := a.toNat % n = 0

/-! ## Frames -/

/-- Every general register reads as before. -/
def SameRegisters (s t : State) : Prop := ∀ r, t.readGr r = s.readGr r

/-- The registers after a write of `v` to register `rd`: r0 reads 0, rd reads v, the others read as before (R21). -/
def RegistersAfter (s t : State) (rd : RegNum) (v : Word) : Prop :=
  ∀ r, t.readGr r = if r = 0 then 0 else if r = rd then v else s.readGr r

/-- Every byte of memory reads as before, and so does every fetch of it; no access has been made at a device. -/
structure SameMemory (s t : State) : Prop where
  bytes : ∀ a, Memory.read t.mem a = Memory.read s.mem a
  unsynced : t.unsynced = s.unsynced
  deviceAccesses : t.deviceAccesses = s.deviceAccesses

/-- The access has been made, once, at a device among `n` bytes from `a` on; where there is none, none has been made at a
device (R50; log 36). -/
def DeviceAccessMade (s t : State) (a n : Nat) (access : DeviceAccess) : Prop :=
  t.deviceAccesses = if touchesDevice s.platform a n then access :: s.deviceAccesses else s.deviceAccesses

/-- LLbit and LLaddr are as before. -/
structure SameReservation (s t : State) : Prop where
  llbit : t.llbit = s.llbit
  lladdr : t.lladdr = s.lladdr

/-- The state that no instruction changes: level, counter, Counter ID, platform, what is still to arrive. -/
structure SameSystem (s t : State) : Prop where
  plv : t.plv = s.plv
  stableCounter : t.stableCounter = s.stableCounter
  counterId : t.counterId = s.counterId
  incoming : t.incoming = s.incoming
  platform : t.platform = s.platform

/-- One register is written, the pc advances by 4, nothing else changes. -/
structure WritesOnly (s t : State) (rd : RegNum) (v : Word) : Prop where
  registers : RegistersAfter s t rd v
  pc : t.pc = s.pc + 4
  memory : SameMemory s t
  reservation : SameReservation s t
  system : SameSystem s t
  trap : t.trap = s.trap
  draws : t.draws = s.draws

/-- As `WritesOnly`, and the value written is a fresh free value. -/
structure WritesFreeValue (s t : State) (rd : RegNum) : Prop where
  registers : RegistersAfter s t rd (Config.anyWord s.draws)
  pc : t.pc = s.pc + 4
  memory : SameMemory s t
  reservation : SameReservation s t
  system : SameSystem s t
  trap : t.trap = s.trap
  draws : t.draws = s.draws + 1

/-- A load of `n` bytes at `a`: one register is written, at a device among the bytes the load is made once and gives
fresh free values, the pc advances by 4, nothing else changes. -/
structure LoadsOnly (s t : State) (rd : RegNum) (a n : Nat) (v : Word) : Prop where
  registers : RegistersAfter s t rd v
  devices : DeviceAccessMade s t a n (.load a n)
  draws : t.draws = if touchesDevice s.platform a n then s.draws + 1 else s.draws
  pc : t.pc = s.pc + 4
  bytes : ∀ b, Memory.read t.mem b = Memory.read s.mem b
  unsynced : t.unsynced = s.unsynced
  reservation : SameReservation s t
  system : SameSystem s t
  trap : t.trap = s.trap

/-- Only the pc changes, to the target. -/
structure GoesOnlyTo (s t : State) (target : Word) : Prop where
  registers : SameRegisters s t
  pc : t.pc = target
  memory : SameMemory s t
  reservation : SameReservation s t
  system : SameSystem s t
  trap : t.trap = s.trap
  draws : t.draws = s.draws

/-- A transfer that links: one register gets the link value, the pc the target, nothing else changes. -/
structure LinksAndGoesTo (s t : State) (rd : RegNum) (link target : Word) : Prop where
  registers : RegistersAfter s t rd link
  pc : t.pc = target
  memory : SameMemory s t
  reservation : SameReservation s t
  system : SameSystem s t
  trap : t.trap = s.trap
  draws : t.draws = s.draws

/-- Memory and devices after the low `n` bytes of `v` were stored at `a`, little-endian (R44): the bytes of storage among
them hold theirs, every other byte reads as before, a fetch may still miss the store where it touched storage, and at a
device among the bytes the store is made once. -/
structure MemoryAfter (s t : State) (a n : Nat) (v : Word) : Prop where
  stored : ∀ k, k < n → deviceAt s.platform (a + k) = false → Memory.read t.mem (a + k) = v.extractLsb' (8 * k) 8
  others : ∀ b, b < a ∨ a + n ≤ b ∨ deviceAt s.platform b = true → Memory.read t.mem b = Memory.read s.mem b
  unsynced : t.unsynced =
    if touchesStorage s.platform a n then ⟨a, Memory.readBytes s.mem a n⟩ :: s.unsynced else s.unsynced
  devices : DeviceAccessMade s t a n (.store a (storeBytes n v))

/-- The low `n` bytes of `v` are stored at `a`, the pc advances by 4, nothing else changes. -/
structure StoresOnly (s t : State) (a n : Nat) (v : Word) : Prop where
  memory : MemoryAfter s t a n v
  registers : SameRegisters s t
  pc : t.pc = s.pc + 4
  reservation : SameReservation s t
  system : SameSystem s t
  trap : t.trap = s.trap
  draws : t.draws = s.draws

/-- An LL.W that completes: the word at the address goes to rd, LLbit becomes 1, LLaddr the address, at a device
among the bytes the load is made once and gives fresh free values, the pc advances by 4, nothing else changes (R181). -/
structure LoadsLinked (s t : State) (rd : RegNum) (addr : Word) : Prop where
  registers : RegistersAfter s t rd
    (s.readByte (addr.toNat + 3) ++ s.readByte (addr.toNat + 2) ++ s.readByte (addr.toNat + 1) ++ s.readByte addr.toNat)
  devices : DeviceAccessMade s t addr.toNat 4 (.load addr.toNat 4)
  draws : t.draws = if touchesDevice s.platform addr.toNat 4 then s.draws + 1 else s.draws
  llbit : t.llbit = true
  lladdr : t.lladdr = addr
  pc : t.pc = s.pc + 4
  bytes : ∀ b, Memory.read t.mem b = Memory.read s.mem b
  unsynced : t.unsynced = s.unsynced
  system : SameSystem s t
  trap : t.trap = s.trap

/-- An SC.W that stores: `x[rd]` goes to memory and then becomes 1, LLbit becomes a fresh free bit, the pc advances by 4,
nothing else changes (R182, R185). -/
structure StoresConditionally (s t : State) (rd : RegNum) (addr : Word) : Prop where
  memory : MemoryAfter s t addr.toNat 4 (s.readGr rd)
  registers : RegistersAfter s t rd 1
  llbit : t.llbit = Config.anyBit s.draws
  lladdr : t.lladdr = s.lladdr
  pc : t.pc = s.pc + 4
  system : SameSystem s t
  trap : t.trap = s.trap
  draws : t.draws = s.draws + 1

/-- An SC.W that does not store: `x[rd]` becomes 0, LLbit a fresh free bit, the pc advances by 4, nothing else changes
(R182, R185). -/
structure FailsToStore (s t : State) (rd : RegNum) : Prop where
  memory : SameMemory s t
  registers : RegistersAfter s t rd 0
  llbit : t.llbit = Config.anyBit s.draws
  lladdr : t.lladdr = s.lladdr
  pc : t.pc = s.pc + 4
  system : SameSystem s t
  trap : t.trap = s.trap
  draws : t.draws = s.draws + 1

/-- An IBAR: no store is left that a fetch may miss, the pc advances by 4, nothing else changes (R192). -/
structure SyncsFetch (s t : State) : Prop where
  unsynced : t.unsynced = []
  bytes : ∀ a, Memory.read t.mem a = Memory.read s.mem a
  deviceAccesses : t.deviceAccesses = s.deviceAccesses
  registers : SameRegisters s t
  pc : t.pc = s.pc + 4
  reservation : SameReservation s t
  system : SameSystem s t
  trap : t.trap = s.trap
  draws : t.draws = s.draws

/-- The exception is taken with the address of the instruction, and nothing else changes (R230). -/
structure TakesTrap (s t : State) (e : Exception) : Prop where
  trap : t.trap = some ⟨e, s.pc⟩
  registers : SameRegisters s t
  pc : t.pc = s.pc
  memory : SameMemory s t
  reservation : SameReservation s t
  system : SameSystem s t
  draws : t.draws = s.draws

/-! ## What an instruction names -/

/-- The register an instruction writes (R20, R22): rd, r1 for BL, rj for RDCNTID; none for branches, stores, barriers. -/
def destination : Instr → Option RegNum
  | .addw rd _ _ | .subw rd _ _ | .addiw rd _ _ | .lu12iw rd _ | .slt rd _ _ | .sltu rd _ _ | .slti rd _ _
  | .sltui rd _ _ | .pcaddu12i rd _ | .and rd _ _ | .or rd _ _ | .nor rd _ _ | .xor rd _ _ | .andi rd _ _
  | .ori rd _ _ | .xori rd _ _ | .mulw rd _ _ | .mulhw rd _ _ | .mulhwu rd _ _ | .divw rd _ _ | .modw rd _ _
  | .divwu rd _ _ | .modwu rd _ _ | .sllw rd _ _ | .srlw rd _ _ | .sraw rd _ _ | .slliw rd _ _ | .srliw rd _ _
  | .sraiw rd _ _ | .jirl rd _ _ | .ldb rd _ _ | .ldh rd _ _ | .ldw rd _ _ | .ldbu rd _ _ | .ldhu rd _ _
  | .llw rd _ _ | .scw rd _ _ | .rdcntvlw rd | .rdcntvhw rd => some rd
  | .bl _ => some 1
  | .rdcntid rj => some rj
  | .beq _ _ _ | .bne _ _ _ | .blt _ _ _ | .bge _ _ _ | .bltu _ _ _ | .bgeu _ _ _ | .b _ | .stb _ _ _ | .sth _ _ _
  | .stw _ _ _ | .preld _ _ _ | .dbar _ | .ibar _ | .syscall _ | .brk _ => none

/-- The registers an instruction reads (R20, R22). PRELD's address is discarded (R171), so it reads none. -/
def sources : Instr → List RegNum
  | .addw _ rj rk | .subw _ rj rk | .slt _ rj rk | .sltu _ rj rk | .and _ rj rk | .or _ rj rk | .nor _ rj rk
  | .xor _ rj rk | .mulw _ rj rk | .mulhw _ rj rk | .mulhwu _ rj rk | .divw _ rj rk | .modw _ rj rk
  | .divwu _ rj rk | .modwu _ rj rk | .sllw _ rj rk | .srlw _ rj rk | .sraw _ rj rk => [rj, rk]
  | .addiw _ rj _ | .slti _ rj _ | .sltui _ rj _ | .andi _ rj _ | .ori _ rj _ | .xori _ rj _ | .slliw _ rj _
  | .srliw _ rj _ | .sraiw _ rj _ | .jirl _ rj _ | .ldb _ rj _ | .ldh _ rj _ | .ldw _ rj _ | .ldbu _ rj _
  | .ldhu _ rj _ | .llw _ rj _ => [rj]
  | .beq rj rd _ | .bne rj rd _ | .blt rj rd _ | .bge rj rd _ | .bltu rj rd _ | .bgeu rj rd _ => [rj, rd]
  | .stb rd rj _ | .sth rd rj _ | .stw rd rj _ | .scw rd rj _ => [rd, rj]
  | .lu12iw _ _ | .pcaddu12i _ _ | .b _ | .bl _ | .preld _ _ _ | .dbar _ | .ibar _ | .syscall _ | .brk _
  | .rdcntvlw _ | .rdcntvhw _ | .rdcntid _ => []

/-- The address and the size of the data access an instruction makes, the accesses that R53 checks; PRELD makes none. -/
def dataAccess (s : State) : Instr → Option (Word × Nat)
  | .ldb _ rj i | .ldbu _ rj i | .stb _ rj i => some (dataAddress s rj i, 1)
  | .ldh _ rj i | .ldhu _ rj i | .sth _ rj i => some (dataAddress s rj i, 2)
  | .ldw _ rj i | .stw _ rj i => some (dataAddress s rj i, 4)
  | .llw _ rj i | .scw _ rj i => some (atomicAddress s rj i, 4)
  | .addw _ _ _ | .subw _ _ _ | .addiw _ _ _ | .lu12iw _ _ | .slt _ _ _ | .sltu _ _ _ | .slti _ _ _ | .sltui _ _ _
  | .pcaddu12i _ _ | .and _ _ _ | .or _ _ _ | .nor _ _ _ | .xor _ _ _ | .andi _ _ _ | .ori _ _ _ | .xori _ _ _
  | .mulw _ _ _ | .mulhw _ _ _ | .mulhwu _ _ _ | .divw _ _ _ | .modw _ _ _ | .divwu _ _ _ | .modwu _ _ _
  | .sllw _ _ _ | .srlw _ _ _ | .sraw _ _ _ | .slliw _ _ _ | .srliw _ _ _ | .sraiw _ _ _
  | .beq _ _ _ | .bne _ _ _ | .blt _ _ _ | .bge _ _ _ | .bltu _ _ _ | .bgeu _ _ _ | .b _ | .bl _ | .jirl _ _ _
  | .preld _ _ _ | .dbar _ | .ibar _ | .syscall _ | .brk _ | .rdcntvlw _ | .rdcntvhw _ | .rdcntid _ => none

/-- ST.B, ST.H, ST.W and SC.W: the instructions that write memory (R20, R43). -/
def isStore : Instr → Bool
  | .stb _ _ _ | .sth _ _ _ | .stw _ _ _ | .scw _ _ _ => true
  | .addw _ _ _ | .subw _ _ _ | .addiw _ _ _ | .lu12iw _ _ | .slt _ _ _ | .sltu _ _ _ | .slti _ _ _ | .sltui _ _ _
  | .pcaddu12i _ _ | .and _ _ _ | .or _ _ _ | .nor _ _ _ | .xor _ _ _ | .andi _ _ _ | .ori _ _ _ | .xori _ _ _
  | .mulw _ _ _ | .mulhw _ _ _ | .mulhwu _ _ _ | .divw _ _ _ | .modw _ _ _ | .divwu _ _ _ | .modwu _ _ _
  | .sllw _ _ _ | .srlw _ _ _ | .sraw _ _ _ | .slliw _ _ _ | .srliw _ _ _ | .sraiw _ _ _
  | .beq _ _ _ | .bne _ _ _ | .blt _ _ _ | .bge _ _ _ | .bltu _ _ _ | .bgeu _ _ _ | .b _ | .bl _ | .jirl _ _ _
  | .ldb _ _ _ | .ldh _ _ _ | .ldw _ _ _ | .ldbu _ _ _ | .ldhu _ _ _ | .preld _ _ _ | .llw _ _ _
  | .dbar _ | .ibar _ | .syscall _ | .brk _ | .rdcntvlw _ | .rdcntvhw _ | .rdcntid _ => false

/-- What the data access of an instruction does at its bytes. -/
def accessKind (i : Instr) : AccessKind := if isStore i then .write else .read

/-- Where a transfer goes when it is taken (R141 to R149); none for an untaken branch and for every other instruction. -/
def transferTarget (s : State) : Instr → Option Word
  | .beq rj rd o => if s.readGr rj = s.readGr rd then some (s.pc + offset16 o) else none
  | .bne rj rd o => if s.readGr rj ≠ s.readGr rd then some (s.pc + offset16 o) else none
  | .blt rj rd o => if (s.readGr rj).toInt < (s.readGr rd).toInt then some (s.pc + offset16 o) else none
  | .bge rj rd o => if (s.readGr rj).toInt ≥ (s.readGr rd).toInt then some (s.pc + offset16 o) else none
  | .bltu rj rd o => if (s.readGr rj).toNat < (s.readGr rd).toNat then some (s.pc + offset16 o) else none
  | .bgeu rj rd o => if (s.readGr rj).toNat ≥ (s.readGr rd).toNat then some (s.pc + offset16 o) else none
  | .b o | .bl o => some (s.pc + offset26 o)
  | .jirl _ rj o => some (s.readGr rj + offset16 o)
  | .addw _ _ _ | .subw _ _ _ | .addiw _ _ _ | .lu12iw _ _ | .slt _ _ _ | .sltu _ _ _ | .slti _ _ _ | .sltui _ _ _
  | .pcaddu12i _ _ | .and _ _ _ | .or _ _ _ | .nor _ _ _ | .xor _ _ _ | .andi _ _ _ | .ori _ _ _ | .xori _ _ _
  | .mulw _ _ _ | .mulhw _ _ _ | .mulhwu _ _ _ | .divw _ _ _ | .modw _ _ _ | .divwu _ _ _ | .modwu _ _ _
  | .sllw _ _ _ | .srlw _ _ _ | .sraw _ _ _ | .slliw _ _ _ | .srliw _ _ _ | .sraiw _ _ _
  | .ldb _ _ _ | .ldh _ _ _ | .ldw _ _ _ | .ldbu _ _ _ | .ldhu _ _ _ | .stb _ _ _ | .sth _ _ _ | .stw _ _ _
  | .preld _ _ _ | .llw _ _ _ | .scw _ _ _ | .dbar _ | .ibar _ | .syscall _ | .brk _ | .rdcntvlw _ | .rdcntvhw _
  | .rdcntid _ => none

/-! ## Comparing two states and two answers -/

/-- The state at another privilege level. -/
def withPlv (p : Plv) (s : State) : State := { s with plv := p }

/-- The answer with its next state changed. -/
def mapNext (f : State → State) : Result → Result
  | .next t => .next (f t)
  | .fault x => .fault x
  | .refused r => .refused r

/-- The two states differ at most in the general registers. -/
def SameButRegisters (s t : State) : Prop := t = { s with gr := t.gr }

/-- The two answers to the instruction differ at most in registers it does not write: its destination is the same in both,
unless a trap kept it from being written. -/
def SameAnswer (i : Instr) : Result → Result → Prop
  | .next t, .next u =>
    SameButRegisters t u ∧ (t.trap = none → ∀ r, destination i = some r → t.readGr r = u.readGr r)
  | .fault x, .fault y => x = y
  | .refused q, .refused r => q = r
  | _, _ => False

/-! ## Fetches and the reservation over several steps -/

/-- No store that a fetch may still miss has written the byte (R64, R192). -/
def FetchSynced (s : State) (a : Nat) : Prop := ∀ u ∈ s.unsynced, u.oldByte a = none

/-- What arrives before the next step of `s` writes no byte of the word at `a`. -/
def NothingArrivesAt (s : State) (a : Nat) : Prop :=
  ∀ c ∈ s.incoming.headD [], ∀ k, k < 4 → c.covers (a + k) = false

/-- A step of the environment, whatever it chooses, and of the core, in which no agent and no instruction writes the word
at `a` (R61). -/
def leavesWord (a : Nat) (s t : State) : Prop :=
  NothingArrivesAt s a ∧ ∃ clears ticks i, exec i (environmentWith clears ticks s) = .next t ∧
    ∀ addr n, isStore i = true → dataAccess (environmentWith clears ticks s) i = some (addr, n) →
      addr.toNat + n ≤ a ∨ a + 4 ≤ addr.toNat

/-- A step of the environment, whatever it chooses, and of the core between an LL.W and its SC.W: no LL.W, no SC.W, and no
store of the core to the word at LLaddr (R184, R187). -/
def betweenLlAndSc (s t : State) : Prop :=
  ∃ clears ticks i, exec i (environmentWith clears ticks s) = .next t ∧
    (∀ rd rj x, i ≠ .llw rd rj x) ∧ (∀ rd rj x, i ≠ .scw rd rj x) ∧
    ∀ addr n, isStore i = true → dataAccess (environmentWith clears ticks s) i = some (addr, n) →
      addr.toNat / 4 ≠ s.lladdr.toNat / 4

/-! ## The invariant -/

/-- What holds at reset and is kept by every step: memory is in its canonical form and lies within ADDR_MAX, what a fetch
may still miss lies there too, LLaddr is word-aligned (only aligned addresses are recorded, R181), and a trap record names
the pc at which the run stopped (R230). -/
structure Inv (s : State) : Prop where
  canonical : Memory.wf s.mem
  inRange : ∀ c ∈ s.mem, c.1 ≤ s.platform.addrMax.toNat
  unsyncedInRange : ∀ u ∈ s.unsynced, u.old ≠ [] ∧ u.addr + u.old.length ≤ s.platform.addrMax.toNat + 1
  reservationAligned : Aligned s.lladdr 4
  trapAtPc : ∀ t, s.trap = some t → t.epc = s.pc

/-- The run has ended in the trap `t` (R231): the end state of a run, as `break 0` ends a test program. -/
def EndedIn (s : State) (t : Trap) : Prop := s.trap = some t

end Sys2Proof.Safety
end

