-- ==== Sys2Proof/Certificates/Slice0/Obligations.lean ====
section
/-! DEFINITION. The statements for the provers, in the order of OBLIGATIONS.json. A statement that rests on a choice of the
model, or on a decision or general knowledge that the spec marks as its own, says so and names the log entry. -/

section Statements

open Sys2Proof Sys2Proof.Machine Sys2Proof.Safety

/-! ## Encoding (30_encoding.md) -/

/-- Every well-formed instruction, with every operand at every value, decodes back from its word and from its bytes in
memory order, whatever follows them. The encodings are general knowledge (R78, G1; log 1). -/
def Obligations.DecodeReadsEncodedInstruction : Prop :=
  ∀ (i : Instr) (rest : List Byte), i.wf = true →
    decodeWord (encode i) = .ok i ∧ decode (encodeBytes i ++ rest) = .ok (i, rest)

/-- Whatever word decodes, the instruction read from it is well formed and encodes to that same word: the decoder drops no
bit. The encodings are general knowledge (R78, G1; log 1). -/
def Obligations.EncodeRestoresDecodedWord : Prop :=
  ∀ (w : Word) (i : Instr), decodeWord w = .ok i → i.wf = true ∧ encode i = w

/-- The decoder is the opcode table R78, whose bits are general knowledge (G1; log 1): what it reads belongs to the row
the word matches; a word that matches a row is read as that row's instruction, but for 0x00006000, which is RDCNTVL.W r0
by the spec's decision D7 (R79; log 32); a word that matches no row is unlisted by its decision D6 (R86; log 22). -/
def Obligations.DecodeFollowsOpcodeTable : Prop :=
  (∀ (w : Word) (i : Instr), decodeWord w = .ok i → i.row ∈ opcodeRows ∧ w &&& i.row.mask = i.row.pattern) ∧
  (∀ (w : Word) (row : OpcodeRow), row ∈ opcodeRows → w &&& row.mask = row.pattern → w ≠ 0x00006000 →
    ∃ i, decodeWord w = .ok i ∧ i.row = row) ∧
  (∀ w : Word, (∀ row ∈ opcodeRows, w &&& row.mask ≠ row.pattern) → decodeWord w = .error (.unlisted w)) ∧
  decodeWord 0x00006000 = .ok (.rdcntvlw 0)

/-- Words written out in the spec's examples, one of each family, decode to the instructions they stand for. That these
are their words is general knowledge, as all encodings are (R78, G1; log 1). -/
def Obligations.ListedWordsDecode : Prop :=
  decodeWord 0x02BFFCA4 = .ok (.addiw 4 5 0xFFF) ∧ decodeWord 0x142468A8 = .ok (.lu12iw 8 0x12345) ∧
  decodeWord 0x002018A4 = .ok (.divw 4 5 6) ∧ decodeWord 0x0040FCA4 = .ok (.slliw 4 5 31) ∧
  decodeWord 0x5BFFF800 = .ok (.beq 0 0 0xFFFE) ∧ decodeWord 0x50000001 = .ok (.b 0x10000) ∧
  decodeWord 0x4FFFFCA4 = .ok (.jirl 4 5 0xFFFF) ∧ decodeWord 0x28BFF0A4 = .ok (.ldw 4 5 0xFFC) ∧
  decodeWord 0x29000CA4 = .ok (.stb 4 5 3) ∧ decodeWord 0x20FFFCA4 = .ok (.llw 4 5 0x3FFF) ∧
  decodeWord 0x38728001 = .ok (.ibar 1) ∧ decodeWord 0x002B0011 = .ok (.syscall 0x11) ∧
  decodeWord 0x000063E0 = .ok (.rdcntid 31)

/-- The words of RDTIMEL.W with two registers other than r0, and of RDTIMEH.W with rj other than r0, are no instructions
(R80, R206; the spec's decision D7, log 22). -/
def Obligations.RdtimeFormsAreUnlisted : Prop :=
  ∀ rd rj : RegNum, rj ≠ 0 →
    (rd ≠ 0 → decodeWord (enc2R 0x18#22 rj rd) = .error (.unlisted (enc2R 0x18#22 rj rd))) ∧
    decodeWord (enc2R 0x19#22 rj rd) = .error (.unlisted (enc2R 0x19#22 rj rd))

/-! ## Registers, reset and the step (10_state.md, 70_reset_and_hazards.md) -/

/-- Register 0 reads 0 and a write of it changes nothing at all; a write of another register is read back there and leaves
every other register as it was (R21). -/
def Obligations.RegisterFileReadsBack : Prop :=
  ∀ (s : State) (r : RegNum) (v : Word),
    s.readGr 0 = 0 ∧ s.writeGr 0 v = s ∧ RegistersAfter s (s.writeGr r v) r v

/-- The Stable Counter is 0 after reset, and x[0] is 0 then as at all times (R260). -/
def Obligations.ResetValuesOfSpec : Prop :=
  State.reset.stableCounter = 0 ∧ State.reset.readGr 0 = 0 ∧ ∀ s : State, s.readGr 0 = 0

/-- What the model itself chose for reset, where the spec gives no value: x[1] to x[31] are 0 (log 2), the pc is
0x1C000000 (log 3), LLbit and LLaddr are 0 (log 5), the Counter ID is 0 (log 6), memory lists nothing and so reads 0x00
everywhere (log 7), the platform is one region, in which every byte of the source's range and no other may be read and
written and is coherent cached, with no word that raises INE (log 8), no store of another agent is scheduled (log 17),
no free value has been drawn (log 25); PLV0 is the spec's own choice (log 4). No trap has been taken and no store made
yet (logs 11, 18). -/
def Obligations.ResetValuesOfModel : Prop :=
  (∀ r, State.reset.readGr r = 0) ∧ State.reset.pc = 0x1C000000 ∧ State.reset.plv = .plv0 ∧
  State.reset.llbit = false ∧ State.reset.lladdr = 0 ∧ State.reset.counterId = 0 ∧
  State.reset.mem = [] ∧ (∀ a, Memory.read State.reset.mem a = 0) ∧
  State.reset.platform.addrMax = 0x7FFFFFFF ∧ State.reset.platform.regions = [⟨0, 0x80000000, 1, .storage⟩] ∧
  (∀ a kind, byteRefusal State.reset.platform kind a = none ↔ a ≤ 0x7FFFFFFF) ∧
  (∀ a, byteCached State.reset.platform a = true ↔ a ≤ 0x7FFFFFFF) ∧
  State.reset.platform.ineWords = [] ∧ State.reset.trap = none ∧ State.reset.unsynced = [] ∧
  State.reset.incoming = [] ∧ State.reset.draws = 0

/-- Where no trap has ended the run, the platform is one the model admits (logs 10, 35), the pc is aligned and the word
that the fetch of this step reads decodes to `i`, the step is `i` executed on the state the environment left; and the
environment has left the pc and the registers alone (R26). -/
def Obligations.StepRunsDecodedInstruction : Prop :=
  ∀ (s : State) (w : Word) (i : Instr), s.trap = none → Configured s.platform → Aligned s.pc 4 →
    fetchWord (environment s) = .ok w → decodeWord w = .ok i →
    step s = exec i (environment s) ∧ (environment s).pc = s.pc ∧ SameRegisters s (environment s)

/-- A word placed by `withFetchWord` where the pc points, in mapped storage, is what the next step fetches and runs,
whatever stores were unsynchronised or arriving before (log 31). -/
def Obligations.LoadedWordRunsNext : Prop :=
  ∀ (s : State) (w : Word) (i : Instr), Configured s.platform → Aligned s.pc 4 →
    Accessible s.platform .read s.pc.toNat 4 → InStorage s.platform s.pc.toNat 4 → decodeWord w = .ok i →
    step (s.withFetchWord 32 w.toNat) = exec i (environment (s.withFetchWord 32 w.toNat))

/-- At a pc that is no multiple of 4 the step raises ADEF, at a multiple of 4 no step raises it (R52). That the record
holds the pc, as epc and as info, and that nothing else happens in the core is the spec's decisions D4 and D28 (R230; logs
11, 28). -/
def Obligations.MisalignedPcRaisesAdef : Prop :=
  ∀ s : State, s.trap = none → Configured s.platform →
    (¬Aligned s.pc 4 → ∃ t, step s = .next t ∧ TakesTrap (environment s) t (.adef s.pc)) ∧
    (Aligned s.pc 4 → ∀ t, step s = .next t → ∀ r, t.trap = some r → ∀ a, r.exception ≠ .adef a)

/-- Of all instructions only JIRL takes an aligned pc to a misaligned one, and it does exactly when `x[rj]` is misaligned:
the target is not checked or rounded by the JIRL itself (R27, R150). -/
def Obligations.OnlyJirlMisalignsPc : Prop :=
  ∀ (i : Instr) (s t : State), exec i s = .next t → Aligned s.pc 4 →
    (Aligned t.pc 4 ↔ ∀ rd rj o, i = .jirl rd rj o → Aligned (s.readGr rj) 4)

/-- A fetched word that matches no row raises INE when the platform lists it, and has no meaning otherwise (R86, R222;
the spec's decision D6, log 22). That the record holds the word, and the pc as epc, and that nothing else happens in the
core, is its decisions D4 and D28 (R221, R230; logs 11, 28). -/
def Obligations.UnlistedWordRaisesIneOrIsRefused : Prop :=
  ∀ (s : State) (w : Word), s.trap = none → Configured s.platform → Aligned s.pc 4 →
    fetchWord (environment s) = .ok w → decodeWord w = .error (.unlisted w) →
    (w ∈ s.platform.ineWords → ∃ t, step s = .next t ∧ TakesTrap (environment s) t (.ine w)) ∧
    (w ∉ s.platform.ineWords → step s = .refused (.unlisted w))

/-- A fetch at an aligned pc where the map has nothing at one of the four bytes has no meaning, and above ADDR_MAX the
refusal says so (R41, R229; the spec's decision D2, log 9). On a platform that has a region with a reserved MAT value, 2
or 3, no step has a meaning, whatever it would fetch or access (R47; the spec's decision D20, log 10); nor on one that
has a device with read side effects in strongly-ordered uncached space that fetches can reach (R269; the spec's choice
U17), or in coherent cached space, the model's own reading of R50 (log 35). -/
def Obligations.FetchOutsideMapIsRefused : Prop :=
  ∀ s : State, s.trap = none →
    (Configured s.platform → Aligned s.pc 4 →
      (∀ r, accessRefusal s.platform .read s.pc.toNat 4 = some r → step s = .refused r) ∧
      (s.platform.addrMax.toNat < s.pc.toNat → step s = .refused (.unmapped s.pc.toNat))) ∧
    (∀ r ∈ s.platform.regions, r.mat = 2 ∨ r.mat = 3 →
      ∃ mat, (mat = 2 ∨ mat = 3) ∧ step s = .refused (.reservedConfiguration mat)) ∧
    ((∀ q ∈ s.platform.regions, q.mat = 0 ∨ q.mat = 1) → ∀ r ∈ s.platform.regions, Exposed r →
      ∃ q ∈ s.platform.regions, Exposed q ∧ step s = .refused (.exposedDevice q.base))

/-- A trap ends the run: no step follows it, and a fault names the trap (R231; log 11). Before it, a step never faults. -/
def Obligations.TrapEndsRun : Prop :=
  ∀ s : State, (∀ r, EndedIn s r → step s = .fault (.trapped r)) ∧ (s.trap = none → ∀ f, step s ≠ .fault f)

/-- What the environment may do before a step, whichever way its free choices fall: let the Stable Counter tick; clear
LLbit, never set it; let the stores of other agents that come now be made, each whole or not at all, a later one over an
earlier one, and with one to the word at LLaddr, in storage or at a device, clear LLbit. Storage holds what they wrote,
a device's bytes of memory stay, and a fetch may miss each that wrote storage as one store. The registers, the pc, the
level, LLaddr, the Counter ID, the platform, the trap record and the core's accesses at devices stay (R10, R54, R186;
the spec's decisions D13, D18; logs 15 to 18, 36). -/
def Obligations.EnvironmentActsOnlyAsAllowed : Prop :=
  ∀ (s : State) (clears : Bool) (ticks : DWord) (t : State) (arriving : List ForeignStore),
    t = environmentWith clears ticks s →
    arriving = (s.incoming.headD []).filter (fun c => c.arrives s.platform) →
    SameRegisters s t ∧ t.pc = s.pc ∧ t.plv = s.plv ∧ t.lladdr = s.lladdr ∧ t.counterId = s.counterId ∧
    t.platform = s.platform ∧ t.trap = s.trap ∧ t.incoming = s.incoming.tail ∧ t.draws = s.draws + 1 ∧
    t.deviceAccesses = s.deviceAccesses ∧
    t.stableCounter = s.stableCounter + ticks ∧
    (t.llbit = true ↔
      s.llbit = true ∧ clears = false ∧ ∀ c ∈ arriving, c.addr / 4 ≠ s.lladdr.toNat / 4) ∧
    (∀ a, (∀ c ∈ arriving, c.covers a = false) ∨ deviceAt s.platform a = true →
      Memory.read t.mem a = Memory.read s.mem a) ∧
    (∀ before c after, arriving = before ++ c :: after → ∀ k, (hk : k < c.bytes.length) →
      deviceAt s.platform (c.addr + k) = false → (∀ d ∈ after, d.covers (c.addr + k) = false) →
      Memory.read t.mem (c.addr + k) = c.bytes[k]) ∧
    (∃ seen, t.unsynced = seen ++ s.unsynced ∧
      seen.map (fun u => (u.addr, u.old.length)) =
        (arriving.filter (fun c => touchesStorage s.platform c.addr c.bytes.length)).reverse.map
          (fun c => (c.addr, c.bytes.length)))

/-- The invariant of the machine holds at reset. It does by what the model chose there: memory lists nothing (log 7),
LLaddr is 0 (log 5), no store has been made (log 18) and no trap taken (log 11). -/
def Obligations.InvariantHoldsAtReset : Prop := Inv State.reset

/-- Every step from a state with the invariant leads to a state with it: memory stays in its canonical form within
ADDR_MAX, so do the stores a fetch may miss, LLaddr stays word-aligned, a trap record names the pc of the end of the
run. -/
def Obligations.StepKeepsInvariant : Prop :=
  ∀ s t : State, Inv s → step s = .next t → Inv t

/-! ## Rules over all instructions (10_state.md, 20_memory.md, 60_exceptions.md) -/

/-- The privilege level is read by nothing: at another level every instruction and every step does the same, and leaves
that level alone (R240, R28). -/
def Obligations.PrivilegeLevelIsNeverRead : Prop :=
  ∀ (s : State) (p : Plv),
    (∀ i : Instr, exec i (withPlv p s) = mapNext (withPlv p) (exec i s)) ∧
    step (withPlv p s) = mapNext (withPlv p) (step s)

/-- No instruction changes the privilege level, the Stable Counter, the Counter ID, the platform or what is still to
arrive (R20, R28, R31, R32). That no step changes the level, the Counter ID or the platform, that is, that they are
constant in a run, is the spec's decisions D22 and D25 and the model's own for the platform (logs 27, 6, 8). -/
def Obligations.RunConstantsAreKept : Prop :=
  (∀ (i : Instr) (s t : State), exec i s = .next t → SameSystem s t) ∧
  ∀ s t : State, step s = .next t → t.plv = s.plv ∧ t.counterId = s.counterId ∧ t.platform = s.platform

/-- Traps are precise: where an instruction or a step ends in a trap, the record holds the address of the instruction,
and every register, the pc, memory, the reservation and all else are as they were before the core's part of the step
(R230; the spec's decision D4, log 28). -/
def Obligations.TrapIsPrecise : Prop :=
  (∀ (i : Instr) (s t : State) (r : Trap), s.trap = none → exec i s = .next t → t.trap = some r →
    r.epc = s.pc ∧ TakesTrap s t r.exception) ∧
  ∀ (s t : State) (r : Trap), step s = .next t → t.trap = some r →
    r.epc = s.pc ∧ TakesTrap (environment s) t r.exception

/-- The only sources of exceptions: ADEF the fetch at a misaligned pc, SYS and BRK their instructions, ALE a misaligned
data access (R221 to R225). That INE is raised for the words the platform lists and no other is the spec's decision D6
(log 22), that the record holds the pc, the code, the address or the word its decision D28 (log 28), that IPE and FPE
are never raised the model's choice (log 33). -/
def Obligations.ExceptionsHaveTheListedSources : Prop :=
  ∀ (s t : State) (e : Exception) (epc : Word), step s = .next t → t.trap = some ⟨e, epc⟩ →
    match e with
    | .adef a => a = s.pc ∧ ¬Aligned s.pc 4
    | .ine w => fetchWord (environment s) = .ok w ∧ decodeWord w = .error (.unlisted w) ∧ w ∈ s.platform.ineWords
    | .sys code => ∃ w, fetchWord (environment s) = .ok w ∧ decodeWord w = .ok (.syscall code)
    | .brk code => ∃ w, fetchWord (environment s) = .ok w ∧ decodeWord w = .ok (.brk code)
    | .ale a => ∃ w i n, fetchWord (environment s) = .ok w ∧ decodeWord w = .ok i ∧
        dataAccess (environment s) i = some (a, n) ∧ ¬Aligned a n
    | .ipe => False
    | .fpe => False

/-- An instruction changes at most the register it names as its destination, r1 for BL, and never r0 (R21, R22). -/
def Obligations.UnnamedRegistersAreKept : Prop :=
  ∀ (i : Instr) (s t : State) (r : RegNum), exec i s = .next t → destination i ≠ some r ∨ r = 0 →
    t.readGr r = s.readGr r

/-- An instruction reads no register it does not name: two states that agree on the registers it names, and on all that is
no register, give the same answer, the same value in its destination and the same state outside the registers (R22). -/
def Obligations.UnnamedRegistersAreNotRead : Prop :=
  ∀ (i : Instr) (s u : State), SameButRegisters s u → (∀ r ∈ sources i, u.readGr r = s.readGr r) →
    SameAnswer i (exec i s) (exec i u)

/-- Where the pc goes: to the target of a taken transfer, by 4 otherwise, modulo 2^32 (R24, R25). The wrap is the spec's
decision D1 (log 26); that the pc stays where an instruction traps, with no entry to a handler, which R24 says changes
it, is its decision D4 (R230; logs 11, 28). -/
def Obligations.PcMovesByTransferOrFour : Prop :=
  ∀ (i : Instr) (s t : State), s.trap = none → exec i s = .next t →
    t.pc = if t.trap = none then (transferTarget s i).getD (s.pc + 4) else s.pc

/-- Memory changes by stores alone: an instruction that is no ST.B, ST.H, ST.W or SC.W leaves every byte, and one that is
leaves every byte outside the address and size of its access (R43). An access at a device is made by data accesses alone:
an instruction's own, once, when one of its bytes is theirs, and nothing else (R40, R50; log 36). -/
def Obligations.MemoryChangesByStoresAlone : Prop :=
  ∀ (i : Instr) (s t : State), exec i s = .next t →
    (isStore i = false → ∀ a, Memory.read t.mem a = Memory.read s.mem a) ∧
    (∀ addr n, dataAccess s i = some (addr, n) → ∀ a, a < addr.toNat ∨ addr.toNat + n ≤ a →
      Memory.read t.mem a = Memory.read s.mem a) ∧
    (t.deviceAccesses = s.deviceAccesses ∨
      ∃ addr n, dataAccess s i = some (addr, n) ∧ touchesDevice s.platform addr.toNat n = true ∧
        if isStore i then ∃ bytes, bytes.length = n ∧ t.deviceAccesses = .store addr.toNat bytes :: s.deviceAccesses
        else t.deviceAccesses = .load addr.toNat n :: s.deviceAccesses)

/-- LLbit and LLaddr change by LL.W and SC.W alone, and SC.W leaves LLaddr (R20, R29). -/
def Obligations.ReservationChangesByLlAndScAlone : Prop :=
  ∀ (i : Instr) (s t : State), exec i s = .next t →
    ((∀ rd rj x, i ≠ .llw rd rj x) → (∀ rd rj x, i ≠ .scw rd rj x) → SameReservation s t) ∧
    ∀ rd rj x, i = .scw rd rj x → t.lladdr = s.lladdr

/-- Every misaligned data access raises ALE with its address and does nothing else, whatever its registers, the map and
LLbit are; an aligned one and PRELD never do (R53, R228; order and info are the spec's decisions D5, D27, D28, log 28). -/
def Obligations.MisalignedDataAccessRaisesAle : Prop :=
  ∀ (i : Instr) (s : State),
    (∀ a n, dataAccess s i = some (a, n) → ¬Aligned a n → ∃ t, exec i s = .next t ∧ TakesTrap s t (.ale a)) ∧
    ((∀ a n, dataAccess s i = some (a, n) → Aligned a n) → s.trap = none →
      ∀ t r, exec i s = .next t → t.trap = some r → ∀ a, r.exception ≠ .ale a)

/-- An aligned load, ordinary store or LL.W of a byte the map has nothing at has no meaning, and an ordinary store to
read-only storage has none either; nor has an SC.W that sees LLbit 1 at LLaddr (R41, R229; the spec's decision D2, logs 9,
10, 34). -/
def Obligations.AccessOutsideMapIsRefused : Prop :=
  ∀ (i : Instr) (s : State) (a : Word) (n : Nat), dataAccess s i = some (a, n) → Aligned a n →
    (∀ rd rj x, i = .scw rd rj x → s.llbit = true ∧ a = s.lladdr) →
    (∀ r, accessRefusal s.platform (accessKind i) a.toNat n = some r → exec i s = .refused r) ∧
    (isStore i = true → ReadOnly s.platform a.toNat n → exec i s = .refused (.readOnly a.toNat))

/-- Nothing but a data access stops: an instruction never faults, and it is refused only where it makes a data access, for
a byte that may not be read or written, or for LL.W and SC.W outside their contract (R183, R229; logs 9, 10, 21, 34). -/
def Obligations.OnlyDataAccessesStop : Prop :=
  ∀ (i : Instr) (s : State), (∀ f, exec i s ≠ .fault f) ∧
    ∀ r, exec i s = .refused r → ∃ a n, dataAccess s i = some (a, n) ∧ Aligned a n ∧
      ((∃ k, k < n ∧ byteRefusal s.platform (accessKind i) (a.toNat + k) = some r) ∨
       (r = .llscUncached a ∧ ¬Cached s.platform a.toNat n ∧
         ((∃ rd rj x, i = .llw rd rj x) ∨ ∃ rd rj x, i = .scw rd rj x ∧ s.llbit = true)) ∨
       (r = .scAddress a s.lladdr ∧ a ≠ s.lladdr ∧ ∃ rd rj x, i = .scw rd rj x ∧ s.llbit = true))

/-! ## Arithmetic and logic (40_arithmetic.md) -/

/-- ADDI.W, LU12I.W and PCADDU12I complete and write the value of R103, R104 and R109, and nothing else. -/
def Obligations.AddImmediateAndUpperResults : Prop :=
  ∀ (s : State) (rd rj : RegNum) (si12 : BitVec 12) (si20 : BitVec 20),
    (∃ t, exec (.addiw rd rj si12) s = .next t ∧ WritesOnly s t rd (s.readGr rj + si12.signExtend 32)) ∧
    (∃ t, exec (.lu12iw rd si20) s = .next t ∧ WritesOnly s t rd (si20 ++ 0#12)) ∧
    (∃ t, exec (.pcaddu12i rd si20) s = .next t ∧ WritesOnly s t rd (s.pc + (si20 ++ 0#12)))

/-- ADD.W, SUB.W, AND, OR, NOR and XOR complete and write the value of R101, R102, R110 to R113, and nothing else. That
each mnemonic means this operation is general knowledge (G2, log 29). -/
def Obligations.RegisterArithmeticResults : Prop :=
  ∀ (s : State) (rd rj rk : RegNum),
    (∃ t, exec (.addw rd rj rk) s = .next t ∧ WritesOnly s t rd (s.readGr rj + s.readGr rk)) ∧
    (∃ t, exec (.subw rd rj rk) s = .next t ∧ WritesOnly s t rd (s.readGr rj - s.readGr rk)) ∧
    (∃ t, exec (.and rd rj rk) s = .next t ∧ WritesOnly s t rd (s.readGr rj &&& s.readGr rk)) ∧
    (∃ t, exec (.or rd rj rk) s = .next t ∧ WritesOnly s t rd (s.readGr rj ||| s.readGr rk)) ∧
    (∃ t, exec (.nor rd rj rk) s = .next t ∧ WritesOnly s t rd (~~~(s.readGr rj ||| s.readGr rk))) ∧
    (∃ t, exec (.xor rd rj rk) s = .next t ∧ WritesOnly s t rd (s.readGr rj ^^^ s.readGr rk))

/-- ANDI, ORI and XORI complete and combine `x[rj]` with the zero-extended immediate, and nothing else changes (R114 to
R116). -/
def Obligations.LogicalImmediateResults : Prop :=
  ∀ (s : State) (rd rj : RegNum) (ui12 : BitVec 12),
    (∃ t, exec (.andi rd rj ui12) s = .next t ∧ WritesOnly s t rd (s.readGr rj &&& ui12.zeroExtend 32)) ∧
    (∃ t, exec (.ori rd rj ui12) s = .next t ∧ WritesOnly s t rd (s.readGr rj ||| ui12.zeroExtend 32)) ∧
    (∃ t, exec (.xori rd rj ui12) s = .next t ∧ WritesOnly s t rd (s.readGr rj ^^^ ui12.zeroExtend 32))

/-- NOP, another name of ANDI r0, r0, 0, adds 4 to the pc and changes nothing else (R117). That its word is 0x03400000 is
general knowledge (R88, G1; log 1). -/
def Obligations.NopOnlyAdvances : Prop :=
  decodeWord 0x03400000 = .ok (.andi 0 0 0) ∧
  ∀ s : State, exec (.andi 0 0 0) s = .next { s with pc := s.pc + 4 }

/-- SLT, SLTU, SLTI and SLTUI complete and write 1 or 0 by the comparison of the values read as integers; SLTUI extends
its immediate by sign and compares unsigned (R105 to R108). -/
def Obligations.SetOnLessThanResults : Prop :=
  ∀ (s : State) (rd rj rk : RegNum) (si12 : BitVec 12),
    (∃ t, exec (.slt rd rj rk) s = .next t ∧
      WritesOnly s t rd (if (s.readGr rj).toInt < (s.readGr rk).toInt then 1 else 0)) ∧
    (∃ t, exec (.sltu rd rj rk) s = .next t ∧
      WritesOnly s t rd (if (s.readGr rj).toNat < (s.readGr rk).toNat then 1 else 0)) ∧
    (∃ t, exec (.slti rd rj si12) s = .next t ∧
      WritesOnly s t rd (if (s.readGr rj).toInt < si12.toInt then 1 else 0)) ∧
    (∃ t, exec (.sltui rd rj si12) s = .next t ∧
      WritesOnly s t rd (if (s.readGr rj).toNat < (si12.signExtend 32).toNat then 1 else 0))

/-- MUL.W and MULH.WU complete and write the low half of the exact signed product and the high half of the exact unsigned
product; both products are the integers' own, with nothing lost in 64 bits (R118, R120). -/
def Obligations.ProductHalves : Prop :=
  ∀ (s : State) (rd rj rk : RegNum),
    (∃ (p : DWord) (t : State), p.toInt = (s.readGr rj).toInt * (s.readGr rk).toInt ∧
      exec (.mulw rd rj rk) s = .next t ∧ WritesOnly s t rd (p.extractLsb' 0 32)) ∧
    (∃ (p : DWord) (t : State), p.toNat = (s.readGr rj).toNat * (s.readGr rk).toNat ∧
      exec (.mulhwu rd rj rk) s = .next t ∧ WritesOnly s t rd (p.extractLsb' 32 32))

/-- MULH.W completes and writes bits 63:32 of the exact product of the signed values. That it is the signed form is the
spec's inference from MULH.WU (R119, G2; log 29). -/
def Obligations.SignedProductHighHalf : Prop :=
  ∀ (s : State) (rd rj rk : RegNum), ∃ (p : DWord) (t : State),
    p.toInt = (s.readGr rj).toInt * (s.readGr rk).toInt ∧
    exec (.mulhw rd rj rk) s = .next t ∧ WritesOnly s t rd (p.extractLsb' 32 32)

/-- The four divisions complete on every pair of operands: the result is the quotient rounded toward zero or the remainder
that goes with it (R121 to R124). That a divisor 0 gives a fresh free value is the spec's decision D10 (R126; log 12), and
that DIV.W of -2^31 by -1 gives one its decision D9 (R127; log 13). -/
def Obligations.DivisionResults : Prop :=
  ∀ (s : State) (rd rj rk : RegNum),
    let n := s.readGr rj
    let d := s.readGr rk
    (∃ t, exec (.divw rd rj rk) s = .next t ∧
      if d = 0 ∨ (n.toInt = -2 ^ 31 ∧ d.toInt = -1) then WritesFreeValue s t rd
      else WritesOnly s t rd (BitVec.ofInt 32 (Int.tdiv n.toInt d.toInt))) ∧
    (∃ t, exec (.modw rd rj rk) s = .next t ∧
      if d = 0 then WritesFreeValue s t rd
      else WritesOnly s t rd (BitVec.ofInt 32 (n.toInt - Int.tdiv n.toInt d.toInt * d.toInt))) ∧
    (∃ t, exec (.divwu rd rj rk) s = .next t ∧
      if d = 0 then WritesFreeValue s t rd else WritesOnly s t rd (BitVec.ofNat 32 (n.toNat / d.toNat))) ∧
    (∃ t, exec (.modwu rd rj rk) s = .next t ∧
      if d = 0 then WritesFreeValue s t rd
      else WritesOnly s t rd (BitVec.ofNat 32 (n.toNat - n.toNat / d.toNat * d.toNat)))

/-- The division law: with a divisor that is not 0, and a quotient that fits, the words DIV.W and MOD.W write to a
register other than r0 satisfy n = q * d + r, the remainder is smaller than the divisor in absolute value and has the
sign of the dividend, and the quotient has the sign the two signs give; the unsigned pair likewise. The identity is the
spec's own reading of the law (R125). -/
def Obligations.DivisionLaw : Prop :=
  ∀ (s tq tr : State) (rd rj rk : RegNum), rd ≠ 0 → s.readGr rk ≠ 0 →
    (¬((s.readGr rj).toInt = -2 ^ 31 ∧ (s.readGr rk).toInt = -1) →
      exec (.divw rd rj rk) s = .next tq → exec (.modw rd rj rk) s = .next tr →
      (s.readGr rj).toInt = (tq.readGr rd).toInt * (s.readGr rk).toInt + (tr.readGr rd).toInt ∧
      |(tr.readGr rd).toInt| < |(s.readGr rk).toInt| ∧
      0 ≤ (tr.readGr rd).toInt * (s.readGr rj).toInt ∧
      0 ≤ (tq.readGr rd).toInt * ((s.readGr rj).toInt * (s.readGr rk).toInt)) ∧
    (exec (.divwu rd rj rk) s = .next tq → exec (.modwu rd rj rk) s = .next tr →
      (s.readGr rj).toNat = (tq.readGr rd).toNat * (s.readGr rk).toNat + (tr.readGr rd).toNat ∧
      (tr.readGr rd).toNat < (s.readGr rk).toNat)

/-- MOD.W of -2^31 by -1 writes 0 (R127, the spec's inference from the law), while DIV.W of them writes a free value and
goes on (log 13). -/
def Obligations.DivisionOverflow : Prop :=
  ∀ (s : State) (rd rj rk : RegNum), s.readGr rj = 0x80000000 → s.readGr rk = 0xFFFFFFFF →
    (∃ t, exec (.modw rd rj rk) s = .next t ∧ WritesOnly s t rd 0) ∧
    (∃ t, exec (.divw rd rj rk) s = .next t ∧ WritesFreeValue s t rd)

/-! ## Shifts (41_shift.md) -/

/-- SLL.W, SRL.W and SRA.W complete; bit by bit, the value moves by the low five bits of `x[rk]`, zeros enter, or for
SRA.W copies of bit 31 (R131 to R133; direction and filling are general knowledge, G2, log 29). -/
def Obligations.RegisterShiftResults : Prop :=
  ∀ (s : State) (rd rj rk : RegNum),
    (∃ v t, exec (.sllw rd rj rk) s = .next t ∧ WritesOnly s t rd v ∧ ∀ k, k < 32 → v.getLsbD k =
      (decide ((s.readGr rk).toNat % 32 ≤ k) && (s.readGr rj).getLsbD (k - (s.readGr rk).toNat % 32))) ∧
    (∃ v t, exec (.srlw rd rj rk) s = .next t ∧ WritesOnly s t rd v ∧ ∀ k, k < 32 → v.getLsbD k =
      (decide (k + (s.readGr rk).toNat % 32 < 32) && (s.readGr rj).getLsbD (k + (s.readGr rk).toNat % 32))) ∧
    (∃ v t, exec (.sraw rd rj rk) s = .next t ∧ WritesOnly s t rd v ∧ ∀ k, k < 32 → v.getLsbD k =
      (s.readGr rj).getLsbD (min (k + (s.readGr rk).toNat % 32) 31))

/-- SLLI.W, SRLI.W and SRAI.W complete; as integers they multiply modulo 2^32, divide, or divide rounding down by the
power of two of the unsigned immediate (R134 to R136; direction and filling are general knowledge, G2, log 29). -/
def Obligations.ImmediateShiftResults : Prop :=
  ∀ (s : State) (rd rj : RegNum) (ui5 : BitVec 5),
    (∃ v t, exec (.slliw rd rj ui5) s = .next t ∧ WritesOnly s t rd v ∧
      v.toNat = (s.readGr rj).toNat * 2 ^ ui5.toNat % 2 ^ 32) ∧
    (∃ v t, exec (.srliw rd rj ui5) s = .next t ∧ WritesOnly s t rd v ∧
      v.toNat = (s.readGr rj).toNat / 2 ^ ui5.toNat) ∧
    (∃ v t, exec (.sraiw rd rj ui5) s = .next t ∧ WritesOnly s t rd v ∧
      v.toInt = (s.readGr rj).toInt / 2 ^ ui5.toNat)

/-! ## Transfers (42_branch.md) -/

/-- The six conditional branches complete: they go to the target when the relation of `x[rj]` to `x[rd]` holds and to the
next instruction when not, and change nothing else (R141 to R146). -/
def Obligations.ConditionalBranchResults : Prop :=
  ∀ (s : State) (rj rd : RegNum) (offs16 : BitVec 16),
    let target := s.pc + (offs16 ++ 0#2).signExtend 32
    (∃ t, exec (.beq rj rd offs16) s = .next t ∧
      GoesOnlyTo s t (if s.readGr rj = s.readGr rd then target else s.pc + 4)) ∧
    (∃ t, exec (.bne rj rd offs16) s = .next t ∧
      GoesOnlyTo s t (if s.readGr rj ≠ s.readGr rd then target else s.pc + 4)) ∧
    (∃ t, exec (.blt rj rd offs16) s = .next t ∧
      GoesOnlyTo s t (if (s.readGr rj).toInt < (s.readGr rd).toInt then target else s.pc + 4)) ∧
    (∃ t, exec (.bge rj rd offs16) s = .next t ∧
      GoesOnlyTo s t (if (s.readGr rj).toInt ≥ (s.readGr rd).toInt then target else s.pc + 4)) ∧
    (∃ t, exec (.bltu rj rd offs16) s = .next t ∧
      GoesOnlyTo s t (if (s.readGr rj).toNat < (s.readGr rd).toNat then target else s.pc + 4)) ∧
    (∃ t, exec (.bgeu rj rd offs16) s = .next t ∧
      GoesOnlyTo s t (if (s.readGr rj).toNat ≥ (s.readGr rd).toNat then target else s.pc + 4))

/-- B and BL complete and go to the pc plus the offset; BL also writes `pc + 4` to r1; nothing else changes (R147,
R148). -/
def Obligations.BranchAndLinkResults : Prop :=
  ∀ (s : State) (offs26 : BitVec 26),
    (∃ t, exec (.b offs26) s = .next t ∧ GoesOnlyTo s t (s.pc + (offs26 ++ 0#2).signExtend 32)) ∧
    (∃ t, exec (.bl offs26) s = .next t ∧
      LinksAndGoesTo s t 1 (s.pc + 4) (s.pc + (offs26 ++ 0#2).signExtend 32))

/-- JIRL completes for every target, aligned and mapped or not: it goes to the old `x[rj]` plus the offset and writes
`pc + 4` to rd (R149, R150; that rj is read first is the spec's decision D8, log 30). -/
def Obligations.JumpIndirectResult : Prop :=
  ∀ (s : State) (rd rj : RegNum) (offs16 : BitVec 16), ∃ t, exec (.jirl rd rj offs16) s = .next t ∧
    LinksAndGoesTo s t rd (s.pc + 4) (s.readGr rj + (offs16 ++ 0#2).signExtend 32)

/-- Offsets of transfers and of LL.W and SC.W count words: the byte offset is four times the signed field, so its reach is
the stated one and it keeps the alignment of what it is added to (R140, R180, the spec's inferences). -/
def Obligations.WordOffsetsAreScaledByFour : Prop :=
  (∀ o : BitVec 16, (offset16 o).toInt = 4 * o.toInt ∧ -2 ^ 17 ≤ (offset16 o).toInt ∧ (offset16 o).toInt ≤ 2 ^ 17 - 4) ∧
  (∀ o : BitVec 26, (offset26 o).toInt = 4 * o.toInt ∧ -2 ^ 27 ≤ (offset26 o).toInt ∧ (offset26 o).toInt ≤ 2 ^ 27 - 4) ∧
  (∀ o : BitVec 14, (offset14 o).toInt = 4 * o.toInt ∧ -32768 ≤ (offset14 o).toInt ∧ (offset14 o).toInt ≤ 32764) ∧
  (∀ (base : Word) (o : BitVec 16), Aligned (base + offset16 o) 4 ↔ Aligned base 4) ∧
  (∀ (base : Word) (o : BitVec 26), Aligned (base + offset26 o) 4 ↔ Aligned base 4) ∧
  (∀ (s : State) (rj : RegNum) (o : BitVec 14), Aligned (atomicAddress s rj o) 4 ↔ Aligned (s.readGr rj) 4)

/-! ## Loads, stores, prefetch (43_load_store.md) -/

/-- The five loads complete where the address `x[rj] + sext_32(si12)` is aligned and in the map: rd gets the
little-endian bytes, extended by sign or by zero, and nothing else changes; at a misaligned address LD.H, LD.HU and LD.W
raise ALE instead (R161 to R165). A byte of storage is memory's; where a device answers the load completes too, is made
there once, and gives a fresh free byte (R40, R50; the spec states no value, log 36). Which byte stands lower is general
knowledge (R44, G14; log 26); what the trap record holds, and that nothing else changes there, is the spec's decisions
D4 and D28 (R169, R230; log 28). -/
def Obligations.LoadResults : Prop :=
  ∀ (s : State) (rd rj : RegNum) (si12 : BitVec 12) (a : Word), a = s.readGr rj + si12.signExtend 32 →
    (∀ b, s.readByte b = if deviceAt s.platform b then Config.deviceByte s.draws b else Memory.read s.mem b) ∧
    (Accessible s.platform .read a.toNat 1 →
      (∃ t, exec (.ldb rd rj si12) s = .next t ∧ LoadsOnly s t rd a.toNat 1 ((s.readByte a.toNat).signExtend 32)) ∧
      (∃ t, exec (.ldbu rd rj si12) s = .next t ∧ LoadsOnly s t rd a.toNat 1 ((s.readByte a.toNat).zeroExtend 32))) ∧
    (Aligned a 2 → Accessible s.platform .read a.toNat 2 →
      (∃ t, exec (.ldh rd rj si12) s = .next t ∧
        LoadsOnly s t rd a.toNat 2 ((s.readByte (a.toNat + 1) ++ s.readByte a.toNat).signExtend 32)) ∧
      (∃ t, exec (.ldhu rd rj si12) s = .next t ∧
        LoadsOnly s t rd a.toNat 2 ((s.readByte (a.toNat + 1) ++ s.readByte a.toNat).zeroExtend 32))) ∧
    (Aligned a 4 → Accessible s.platform .read a.toNat 4 →
      ∃ t, exec (.ldw rd rj si12) s = .next t ∧
        LoadsOnly s t rd a.toNat 4
          (s.readByte (a.toNat + 3) ++ s.readByte (a.toNat + 2) ++ s.readByte (a.toNat + 1) ++ s.readByte a.toNat)) ∧
    (¬Aligned a 2 →
      (∃ t, exec (.ldh rd rj si12) s = .next t ∧ TakesTrap s t (.ale a)) ∧
      (∃ t, exec (.ldhu rd rj si12) s = .next t ∧ TakesTrap s t (.ale a))) ∧
    (¬Aligned a 4 → ∃ t, exec (.ldw rd rj si12) s = .next t ∧ TakesTrap s t (.ale a))

/-- The three stores complete where the address `x[rj] + sext_32(si12)` is aligned and in the map, and no read-only
storage: the low bytes of `x[rd]` stand in storage there from the lowest address on, every other byte and every register
is as before; at a misaligned address ST.H and ST.W raise ALE instead (R166 to R168). Where a device answers the store
completes too: it is made there once, with those bytes, and memory is as before (R40, R50; what the device does with
them the spec does not say, log 36). That a later fetch may miss the store until an IBAR is the spec's decision D24
(R64; log 18), which byte stands lower general knowledge (R44, G14; log 26), what the trap record holds, and that
nothing else changes there, its decisions D4 and D28 (R169, R230; log 28). -/
def Obligations.StoreResults : Prop :=
  ∀ (s : State) (rd rj : RegNum) (si12 : BitVec 12) (a : Word), a = s.readGr rj + si12.signExtend 32 →
    (Accessible s.platform .write a.toNat 1 →
      ∃ t, exec (.stb rd rj si12) s = .next t ∧ StoresOnly s t a.toNat 1 (s.readGr rd)) ∧
    (Aligned a 2 → Accessible s.platform .write a.toNat 2 →
      ∃ t, exec (.sth rd rj si12) s = .next t ∧ StoresOnly s t a.toNat 2 (s.readGr rd)) ∧
    (Aligned a 4 → Accessible s.platform .write a.toNat 4 →
      ∃ t, exec (.stw rd rj si12) s = .next t ∧ StoresOnly s t a.toNat 4 (s.readGr rd)) ∧
    (¬Aligned a 2 → ∃ t, exec (.sth rd rj si12) s = .next t ∧ TakesTrap s t (.ale a)) ∧
    (¬Aligned a 4 → ∃ t, exec (.stw rd rj si12) s = .next t ∧ TakesTrap s t (.ale a))

/-- What an ST.W left in storage is what later loads of the same core find there, whole, by halfwords and by bytes, each
at its place of the little-endian word: the load may come at once, or after any number of steps in which no agent and no
instruction writes the word, with the environment's own part of its step, in which no store to the word arrives (R46,
R61; that a core sees its own stores is the spec's decision D19, the byte order general knowledge, logs 24, 26). -/
def Obligations.LoadsSeeTheStoredWord : Prop :=
  ∀ (s t u e v : State) (rv rb rd rj : RegNum) (si si' : BitVec 12) (a k : Nat), rd ≠ 0 →
    exec (.stw rv rb si) s = .next t → t.trap = none → a = (dataAddress s rb si).toNat →
    InStorage s.platform a 4 → Relation.ReflTransGen (leavesWord a) t u →
    (e = u ∨ NothingArrivesAt u a ∧ ∃ clears ticks, e = environmentWith clears ticks u) →
    (dataAddress e rj si').toNat = a + k → v.trap = none →
    (k = 0 → exec (.ldw rd rj si') e = .next v → v.readGr rd = s.readGr rv) ∧
    (k = 0 ∨ k = 2 →
      (exec (.ldh rd rj si') e = .next v → v.readGr rd = ((s.readGr rv).extractLsb' (8 * k) 16).signExtend 32) ∧
      (exec (.ldhu rd rj si') e = .next v → v.readGr rd = ((s.readGr rv).extractLsb' (8 * k) 16).zeroExtend 32)) ∧
    (k < 4 →
      (exec (.ldb rd rj si') e = .next v → v.readGr rd = ((s.readGr rv).extractLsb' (8 * k) 8).signExtend 32) ∧
      (exec (.ldbu rd rj si') e = .next v → v.readGr rd = ((s.readGr rv).extractLsb' (8 * k) 8).zeroExtend 32))

/-- PRELD completes for every hint, register and offset, at misaligned, unmapped and device addresses too, and only the pc
advances (R171; the spec's decision D11, log 20). -/
def Obligations.PreloadOnlyAdvances : Prop :=
  ∀ (s : State) (hint : BitVec 5) (rj : RegNum) (si12 : BitVec 12), ∃ t, exec (.preld hint rj si12) s = .next t ∧
    GoesOnlyTo s t (s.pc + 4)

/-! ## Atomic access (44_atomic.md) -/

/-- LL.W completes at an aligned coherent cached address of the map: rd gets the word that a load finds there, LLbit
becomes 1, LLaddr the address (R181, R180; that it asks for a cached address is the spec's decision D14, log 21; that at
a device it is made once and gives free bytes is log 36, the byte order log 26). -/
def Obligations.LoadLinkedResult : Prop :=
  ∀ (s : State) (rd rj : RegNum) (si14 : BitVec 14) (a : Word), a = s.readGr rj + (si14 ++ 0#2).signExtend 32 →
    Aligned a 4 → Accessible s.platform .read a.toNat 4 → Cached s.platform a.toNat 4 →
    ∃ t, exec (.llw rd rj si14) s = .next t ∧ LoadsLinked s t rd a

/-- SC.W completes: with LLbit 1 at LLaddr, a coherent cached address of the map that may be written, it stores the old
`x[rd]` and returns 1; with LLbit 0 it stores nothing and returns 0, at every aligned address, mapped or not. LLbit is a
free bit afterwards (R182, R183, R185; the spec's decisions D8, D12, D14, logs 14, 21, 30, 34). That a later fetch may
miss the store until an IBAR is the spec's decision D24 (R64; log 18), which byte stands lower general knowledge (R44,
G14; log 26), that at a device it is made once log 36. -/
def Obligations.StoreConditionalResult : Prop :=
  ∀ (s : State) (rd rj : RegNum) (si14 : BitVec 14) (a : Word), a = s.readGr rj + (si14 ++ 0#2).signExtend 32 →
    Aligned a 4 →
    (s.llbit = true → s.lladdr = a → Accessible s.platform .write a.toNat 4 → Cached s.platform a.toNat 4 →
      ∃ t, exec (.scw rd rj si14) s = .next t ∧ StoresConditionally s t rd a) ∧
    (s.llbit = false → ∃ t, exec (.scw rd rj si14) s = .next t ∧ FailsToStore s t rd)

/-- LL.W records its address and sets LLbit to 1; SC.W stores only when LLbit is 1, said here of the bytes of storage, and
returns the LLbit it saw in rd (R29). -/
def Obligations.StoreConditionalTestsLLbit : Prop :=
  ∀ (s t : State) (rd rj : RegNum) (si14 : BitVec 14), t.trap = none →
    (exec (.llw rd rj si14) s = .next t → t.llbit = true ∧ t.lladdr = atomicAddress s rj si14) ∧
    (exec (.scw rd rj si14) s = .next t →
      (∀ k, k < 4 → deviceAt s.platform ((atomicAddress s rj si14).toNat + k) = false →
        Memory.read t.mem ((atomicAddress s rj si14).toNat + k) =
          if s.llbit then (s.readGr rd).extractLsb' (8 * k) 8
          else Memory.read s.mem ((atomicAddress s rj si14).toNat + k)) ∧
      (rd ≠ 0 → t.readGr rd = if s.llbit then 1 else 0))

/-- Outside the contract of the pair there is no meaning: an aligned SC.W with LLbit 1 at another address than LLaddr, and
an LL.W, or an SC.W with LLbit 1 at LLaddr, off coherent cached storage (R183; the spec's decision D14, log 21). -/
def Obligations.AtomicContractIsRefused : Prop :=
  ∀ (s : State) (rd rj : RegNum) (si14 : BitVec 14) (a : Word), a = atomicAddress s rj si14 → Aligned a 4 →
    (s.llbit = true → a ≠ s.lladdr → exec (.scw rd rj si14) s = .refused (.scAddress a s.lladdr)) ∧
    (¬Cached s.platform a.toNat 4 →
      (Accessible s.platform .read a.toNat 4 → exec (.llw rd rj si14) s = .refused (.llscUncached a)) ∧
      (Accessible s.platform .write a.toNat 4 → s.llbit = true → a = s.lladdr →
        exec (.scw rd rj si14) s = .refused (.llscUncached a)))

/-- Whenever an SC.W returns 1, the word of storage at LLaddr still held what the LL.W had read when the SC.W stored to
it, however many steps of the environment and of other instructions lay between: no other agent had written it (R186,
R187; the core's own stores to the word in between are left out). -/
def Obligations.AtomicPairExcludesForeignWrites : Prop :=
  ∀ (s t u e v : State) (rd rj rd' rj' : RegNum) (si si' : BitVec 14) (clears : Bool) (ticks : DWord),
    exec (.llw rd rj si) s = .next t → t.trap = none → Relation.ReflTransGen betweenLlAndSc t u →
    e = environmentWith clears ticks u → exec (.scw rd' rj' si') e = .next v → v.trap = none → rd' ≠ 0 →
    v.readGr rd' = 1 → InStorage s.platform t.lladdr.toNat 4 → ∀ k, k < 4 →
      Memory.read e.mem (t.lladdr.toNat + k) = Memory.read s.mem (t.lladdr.toNat + k) ∧
      Memory.read v.mem (t.lladdr.toNat + k) = (e.readGr rd').extractLsb' (8 * k) 8

/-! ## Barriers and the fetch of what was stored (45_barrier.md, 20_memory.md) -/

/-- DBAR and IBAR complete for every hint: DBAR only advances the pc, as a full barrier does in one core, and IBAR besides
leaves no store that a fetch may miss (R190 to R193; that every hint acts as 0 is the spec's decision D15, log 19). -/
def Obligations.BarrierResults : Prop :=
  ∀ (s : State) (hint : BitVec 15),
    (∃ t, exec (.dbar hint) s = .next t ∧ GoesOnlyTo s t (s.pc + 4)) ∧
    (∃ t, exec (.ibar hint) s = .next t ∧ SyncsFetch s t)

/-- After an IBAR every fetch sees every store before it: the fetched byte is memory's, at every address of storage, and
it stays so through the steps after it until the core or another agent writes that byte again (R192; log 19). -/
def Obligations.FetchAfterIbarSeesStores : Prop :=
  (∀ (s t : State) (hint : BitVec 15), exec (.ibar hint) s = .next t → ∀ a, FetchSynced t a) ∧
  (∀ (s t : State) (i : Instr) (a : Nat), FetchSynced s a →
    (∀ c ∈ s.incoming.headD [], c.covers a = false) → exec i (environment s) = .next t →
    (∀ addr n, isStore i = true → dataAccess (environment s) i = some (addr, n) →
      a < addr.toNat ∨ addr.toNat + n ≤ a) → FetchSynced t a) ∧
  (∀ (s : State) (a : Nat), deviceAt s.platform a = false → FetchSynced s a → fetchByte s a = Memory.read s.mem a)

/-- Without an IBAR, the fetch of a word of storage an ST.W has just written sees the word before or the word after,
never a mixture; and so does the fetch of what another agent's store has just written, of one, two or four bytes (R64,
R54, the spec's decisions D24, D18; logs 17, 18). -/
def Obligations.FetchSeesOldOrNewStore : Prop :=
  (∀ (s t : State) (rd rj : RegNum) (si12 : BitVec 12) (a : Nat), exec (.stw rd rj si12) s = .next t → t.trap = none →
    a = (dataAddress s rj si12).toNat → InStorage s.platform a 4 → (∀ k, k < 4 → FetchSynced s (a + k)) →
    (∀ k, k < 4 → fetchByte t (a + k) = (s.readGr rd).extractLsb' (8 * k) 8) ∨
    (∀ k, k < 4 → fetchByte t (a + k) = Memory.read s.mem (a + k))) ∧
  (∀ (s t : State) (c : ForeignStore) (clears : Bool) (ticks : DWord), s.incoming.headD [] = [c] →
    t = environmentWith clears ticks s → InStorage s.platform c.addr c.bytes.length →
    (∀ k, k < c.bytes.length → FetchSynced s (c.addr + k)) →
    (∀ k, (hk : k < c.bytes.length) → fetchByte t (c.addr + k) = c.bytes[k]) ∨
    (∀ k, k < c.bytes.length → fetchByte t (c.addr + k) = Memory.read s.mem (c.addr + k)))

/-! ## System call, breakpoint, counter reads (46_misc.md) -/

/-- SYSCALL and BREAK take their exceptions, whatever the code and the level, and report the code and the address of the
instruction itself; every register, memory byte and LLbit stays (R227). -/
def Obligations.SyscallAndBreakTrap : Prop :=
  ∀ (s : State) (code : BitVec 15),
    (∃ t, exec (.syscall code) s = .next t ∧ TakesTrap s t (.sys code)) ∧
    (∃ t, exec (.brk code) s = .next t ∧ TakesTrap s t (.brk code))

/-- The counter reads complete: RDCNTVL.W and RDCNTVH.W write bits 31:0 and 63:32 of the Stable Counter, whose value at
the step is free (R203, R204; C2, D17, log 16), RDCNTID writes the Counter ID to the register of its rj field (R205;
D25, log 6). -/
def Obligations.CounterReadResults : Prop :=
  ∀ (s : State) (r : RegNum),
    (∃ t, exec (.rdcntvlw r) s = .next t ∧ WritesOnly s t r (s.stableCounter.extractLsb' 0 32)) ∧
    (∃ t, exec (.rdcntvhw r) s = .next t ∧ WritesOnly s t r (s.stableCounter.extractLsb' 32 32)) ∧
    (∃ t, exec (.rdcntid r) s = .next t ∧ WritesOnly s t r s.counterId) ∧
    exec (.rdcntid 0) s = exec (.rdcntvlw 0) s

end Statements
end

