-- ==== Sys2Proof/Laws/PerInstr.lean ====
section
/-! SUPPORT. The encoder against the opcode table, instruction by instruction: the fixed bits of R78 stand where the table
has them, whatever the operands. -/

namespace Sys2Proof.Laws.OpcodeRow

/-- The word of the instruction belongs to the instruction's row of the opcode table (R78). -/
def Statement (i : Instr) : Prop := encode i &&& i.row.mask = i.row.pattern

/-! ## The fixed bits of each format -/

theorem and_ones (m : BitVec w) (h : m = BitVec.allOnes w) (x : BitVec w) : x &&& m = x := by
  rw [h, BitVec.and_allOnes]

theorem enc3R_fixed (op : BitVec 17) (rk rj rd : BitVec 5) : enc3R op rk rj rd &&& 0xFFFF8000 = enc3R op 0 0 0 := by
  have h : (0xFFFF8000 : Word) = enc3R 0x1FFFF 0 0 0 := by decide
  rw [h]; unfold enc3R
  rw [BitVec.and_append, BitVec.and_append, BitVec.and_append]
  simp [and_ones (0x1FFFF#17) rfl]

theorem enc2RI12_fixed (op : BitVec 10) (i : BitVec 12) (rj rd : BitVec 5) :
    enc2RI12 op i rj rd &&& 0xFFC00000 = enc2RI12 op 0 0 0 := by
  have h : (0xFFC00000 : Word) = enc2RI12 0x3FF 0 0 0 := by decide
  rw [h]; unfold enc2RI12
  rw [BitVec.and_append, BitVec.and_append, BitVec.and_append]
  simp [and_ones (0x3FF#10) rfl]

theorem enc2RI14_fixed (op : BitVec 8) (i : BitVec 14) (rj rd : BitVec 5) :
    enc2RI14 op i rj rd &&& 0xFF000000 = enc2RI14 op 0 0 0 := by
  have h : (0xFF000000 : Word) = enc2RI14 0xFF 0 0 0 := by decide
  rw [h]; unfold enc2RI14
  rw [BitVec.and_append, BitVec.and_append, BitVec.and_append]
  simp [and_ones (0xFF#8) rfl]

theorem enc2RI16_fixed (op : BitVec 6) (i : BitVec 16) (rj rd : BitVec 5) :
    enc2RI16 op i rj rd &&& 0xFC000000 = enc2RI16 op 0 0 0 := by
  have h : (0xFC000000 : Word) = enc2RI16 0x3F 0 0 0 := by decide
  rw [h]; unfold enc2RI16
  rw [BitVec.and_append, BitVec.and_append, BitVec.and_append]
  simp [and_ones (0x3F#6) rfl]

theorem enc1RI20_fixed (op : BitVec 7) (i : BitVec 20) (rd : BitVec 5) :
    enc1RI20 op i rd &&& 0xFE000000 = enc1RI20 op 0 0 := by
  have h : (0xFE000000 : Word) = enc1RI20 0x7F 0 0 := by decide
  rw [h]; unfold enc1RI20
  rw [BitVec.and_append, BitVec.and_append]
  simp [and_ones (0x7F#7) rfl]

theorem encI26_fixed (op : BitVec 6) (i : BitVec 26) : encI26 op i &&& 0xFC000000 = encI26 op 0 := by
  have h : (0xFC000000 : Word) = encI26 0x3F 0 := by decide
  rw [h]; unfold encI26
  rw [BitVec.and_append, BitVec.and_append]
  simp [and_ones (0x3F#6) rfl]

theorem encI15_fixed (op : BitVec 17) (i : BitVec 15) : encI15 op i &&& 0xFFFF8000 = encI15 op 0 := by
  have h : (0xFFFF8000 : Word) = encI15 0x1FFFF 0 := by decide
  rw [h]; unfold encI15
  rw [BitVec.and_append]
  simp [and_ones (0x1FFFF#17) rfl]

theorem enc2R_fixed_rd (op : BitVec 22) (rj rd : BitVec 5) : enc2R op rj rd &&& 0xFFFFFFE0 = enc2R op rj 0 := by
  have h : (0xFFFFFFE0 : Word) = enc2R 0x3FFFFF 0x1F 0 := by decide
  rw [h]; unfold enc2R
  rw [BitVec.and_append, BitVec.and_append]
  simp [and_ones (0x3FFFFF#22) rfl, and_ones (0x1F#5) rfl]

theorem enc2R_fixed_rj (op : BitVec 22) (rj rd : BitVec 5) : enc2R op rj rd &&& 0xFFFFFC1F = enc2R op 0 rd := by
  have h : (0xFFFFFC1F : Word) = enc2R 0x3FFFFF 0 0x1F := by decide
  rw [h]; unfold enc2R
  rw [BitVec.and_append, BitVec.and_append]
  simp [and_ones (0x3FFFFF#22) rfl, and_ones (0x1F#5) rfl]

/-! ## One lemma per constructor -/

theorem addw (rd rj rk : RegNum) : Statement (.addw rd rj rk) :=
  (enc3R_fixed 0x20#17 rk rj rd).trans rfl

theorem subw (rd rj rk : RegNum) : Statement (.subw rd rj rk) :=
  (enc3R_fixed 0x22#17 rk rj rd).trans rfl

theorem addiw (rd rj : RegNum) (si12 : BitVec 12) : Statement (.addiw rd rj si12) :=
  (enc2RI12_fixed 0xA#10 si12 rj rd).trans rfl

theorem lu12iw (rd : RegNum) (si20 : BitVec 20) : Statement (.lu12iw rd si20) :=
  (enc1RI20_fixed 0xA#7 si20 rd).trans rfl

theorem slt (rd rj rk : RegNum) : Statement (.slt rd rj rk) :=
  (enc3R_fixed 0x24#17 rk rj rd).trans rfl

theorem sltu (rd rj rk : RegNum) : Statement (.sltu rd rj rk) :=
  (enc3R_fixed 0x25#17 rk rj rd).trans rfl

theorem slti (rd rj : RegNum) (si12 : BitVec 12) : Statement (.slti rd rj si12) :=
  (enc2RI12_fixed 0x8#10 si12 rj rd).trans rfl

theorem sltui (rd rj : RegNum) (si12 : BitVec 12) : Statement (.sltui rd rj si12) :=
  (enc2RI12_fixed 0x9#10 si12 rj rd).trans rfl

theorem pcaddu12i (rd : RegNum) (si20 : BitVec 20) : Statement (.pcaddu12i rd si20) :=
  (enc1RI20_fixed 0xE#7 si20 rd).trans rfl

theorem and (rd rj rk : RegNum) : Statement (.and rd rj rk) :=
  (enc3R_fixed 0x29#17 rk rj rd).trans rfl

theorem or (rd rj rk : RegNum) : Statement (.or rd rj rk) :=
  (enc3R_fixed 0x2A#17 rk rj rd).trans rfl

theorem nor (rd rj rk : RegNum) : Statement (.nor rd rj rk) :=
  (enc3R_fixed 0x28#17 rk rj rd).trans rfl

theorem xor (rd rj rk : RegNum) : Statement (.xor rd rj rk) :=
  (enc3R_fixed 0x2B#17 rk rj rd).trans rfl

theorem andi (rd rj : RegNum) (ui12 : BitVec 12) : Statement (.andi rd rj ui12) :=
  (enc2RI12_fixed 0xD#10 ui12 rj rd).trans rfl

theorem ori (rd rj : RegNum) (ui12 : BitVec 12) : Statement (.ori rd rj ui12) :=
  (enc2RI12_fixed 0xE#10 ui12 rj rd).trans rfl

theorem xori (rd rj : RegNum) (ui12 : BitVec 12) : Statement (.xori rd rj ui12) :=
  (enc2RI12_fixed 0xF#10 ui12 rj rd).trans rfl

theorem mulw (rd rj rk : RegNum) : Statement (.mulw rd rj rk) :=
  (enc3R_fixed 0x38#17 rk rj rd).trans rfl

theorem mulhw (rd rj rk : RegNum) : Statement (.mulhw rd rj rk) :=
  (enc3R_fixed 0x39#17 rk rj rd).trans rfl

theorem mulhwu (rd rj rk : RegNum) : Statement (.mulhwu rd rj rk) :=
  (enc3R_fixed 0x3A#17 rk rj rd).trans rfl

theorem divw (rd rj rk : RegNum) : Statement (.divw rd rj rk) :=
  (enc3R_fixed 0x40#17 rk rj rd).trans rfl

theorem modw (rd rj rk : RegNum) : Statement (.modw rd rj rk) :=
  (enc3R_fixed 0x41#17 rk rj rd).trans rfl

theorem divwu (rd rj rk : RegNum) : Statement (.divwu rd rj rk) :=
  (enc3R_fixed 0x42#17 rk rj rd).trans rfl

theorem modwu (rd rj rk : RegNum) : Statement (.modwu rd rj rk) :=
  (enc3R_fixed 0x43#17 rk rj rd).trans rfl

theorem sllw (rd rj rk : RegNum) : Statement (.sllw rd rj rk) :=
  (enc3R_fixed 0x2E#17 rk rj rd).trans rfl

theorem srlw (rd rj rk : RegNum) : Statement (.srlw rd rj rk) :=
  (enc3R_fixed 0x2F#17 rk rj rd).trans rfl

theorem sraw (rd rj rk : RegNum) : Statement (.sraw rd rj rk) :=
  (enc3R_fixed 0x30#17 rk rj rd).trans rfl

theorem slliw (rd rj : RegNum) (ui5 : BitVec 5) : Statement (.slliw rd rj ui5) :=
  (enc3R_fixed 0x81#17 ui5 rj rd).trans rfl

theorem srliw (rd rj : RegNum) (ui5 : BitVec 5) : Statement (.srliw rd rj ui5) :=
  (enc3R_fixed 0x89#17 ui5 rj rd).trans rfl

theorem sraiw (rd rj : RegNum) (ui5 : BitVec 5) : Statement (.sraiw rd rj ui5) :=
  (enc3R_fixed 0x91#17 ui5 rj rd).trans rfl

theorem beq (rj rd : RegNum) (offs16 : BitVec 16) : Statement (.beq rj rd offs16) :=
  (enc2RI16_fixed 0x16#6 offs16 rj rd).trans rfl

theorem bne (rj rd : RegNum) (offs16 : BitVec 16) : Statement (.bne rj rd offs16) :=
  (enc2RI16_fixed 0x17#6 offs16 rj rd).trans rfl

theorem blt (rj rd : RegNum) (offs16 : BitVec 16) : Statement (.blt rj rd offs16) :=
  (enc2RI16_fixed 0x18#6 offs16 rj rd).trans rfl

theorem bge (rj rd : RegNum) (offs16 : BitVec 16) : Statement (.bge rj rd offs16) :=
  (enc2RI16_fixed 0x19#6 offs16 rj rd).trans rfl

theorem bltu (rj rd : RegNum) (offs16 : BitVec 16) : Statement (.bltu rj rd offs16) :=
  (enc2RI16_fixed 0x1A#6 offs16 rj rd).trans rfl

theorem bgeu (rj rd : RegNum) (offs16 : BitVec 16) : Statement (.bgeu rj rd offs16) :=
  (enc2RI16_fixed 0x1B#6 offs16 rj rd).trans rfl

theorem b (offs26 : BitVec 26) : Statement (.b offs26) :=
  (encI26_fixed 0x14#6 offs26).trans rfl

theorem bl (offs26 : BitVec 26) : Statement (.bl offs26) :=
  (encI26_fixed 0x15#6 offs26).trans rfl

theorem jirl (rd rj : RegNum) (offs16 : BitVec 16) : Statement (.jirl rd rj offs16) :=
  (enc2RI16_fixed 0x13#6 offs16 rj rd).trans rfl

theorem ldb (rd rj : RegNum) (si12 : BitVec 12) : Statement (.ldb rd rj si12) :=
  (enc2RI12_fixed 0xA0#10 si12 rj rd).trans rfl

theorem ldh (rd rj : RegNum) (si12 : BitVec 12) : Statement (.ldh rd rj si12) :=
  (enc2RI12_fixed 0xA1#10 si12 rj rd).trans rfl

theorem ldw (rd rj : RegNum) (si12 : BitVec 12) : Statement (.ldw rd rj si12) :=
  (enc2RI12_fixed 0xA2#10 si12 rj rd).trans rfl

theorem ldbu (rd rj : RegNum) (si12 : BitVec 12) : Statement (.ldbu rd rj si12) :=
  (enc2RI12_fixed 0xA8#10 si12 rj rd).trans rfl

theorem ldhu (rd rj : RegNum) (si12 : BitVec 12) : Statement (.ldhu rd rj si12) :=
  (enc2RI12_fixed 0xA9#10 si12 rj rd).trans rfl

theorem stb (rd rj : RegNum) (si12 : BitVec 12) : Statement (.stb rd rj si12) :=
  (enc2RI12_fixed 0xA4#10 si12 rj rd).trans rfl

theorem sth (rd rj : RegNum) (si12 : BitVec 12) : Statement (.sth rd rj si12) :=
  (enc2RI12_fixed 0xA5#10 si12 rj rd).trans rfl

theorem stw (rd rj : RegNum) (si12 : BitVec 12) : Statement (.stw rd rj si12) :=
  (enc2RI12_fixed 0xA6#10 si12 rj rd).trans rfl

theorem preld (hint : BitVec 5) (rj : RegNum) (si12 : BitVec 12) : Statement (.preld hint rj si12) :=
  (enc2RI12_fixed 0xAB#10 si12 rj hint).trans rfl

theorem llw (rd rj : RegNum) (si14 : BitVec 14) : Statement (.llw rd rj si14) :=
  (enc2RI14_fixed 0x20#8 si14 rj rd).trans rfl

theorem scw (rd rj : RegNum) (si14 : BitVec 14) : Statement (.scw rd rj si14) :=
  (enc2RI14_fixed 0x21#8 si14 rj rd).trans rfl

theorem dbar (hint : BitVec 15) : Statement (.dbar hint) :=
  (encI15_fixed 0x70E4#17 hint).trans rfl

theorem ibar (hint : BitVec 15) : Statement (.ibar hint) :=
  (encI15_fixed 0x70E5#17 hint).trans rfl

theorem syscall (code : BitVec 15) : Statement (.syscall code) :=
  (encI15_fixed 0x56#17 code).trans rfl

theorem brk (code : BitVec 15) : Statement (.brk code) :=
  (encI15_fixed 0x54#17 code).trans rfl

theorem rdcntvlw (rd : RegNum) : Statement (.rdcntvlw rd) :=
  (enc2R_fixed_rd 0x18#22 0 rd).trans rfl

theorem rdcntvhw (rd : RegNum) : Statement (.rdcntvhw rd) :=
  (enc2R_fixed_rd 0x19#22 0 rd).trans rfl

theorem rdcntid (rj : RegNum) : Statement (.rdcntid rj) :=
  (enc2R_fixed_rj 0x18#22 rj 0).trans rfl

end Sys2Proof.Laws.OpcodeRow
end

