-- ==== Sys2Proof/Laws/Encoding.lean ====
section
/-! SUPPORT. Where the fields of a word stand: each format cut at its places gives its fields, and a word is its fields put
together again. -/

namespace Sys2Proof

/-! ## Slices of a concatenation -/

theorem slice_low (hi : BitVec m) (lo : BitVec n) (s l : Nat) (h : s + l ≤ n) :
    (hi ++ lo).extractLsb' s l = lo.extractLsb' s l := BitVec.extractLsb'_append_eq_of_add_le h

theorem slice_high (hi : BitVec m) (lo : BitVec n) (s l : Nat) (h : n ≤ s) :
    (hi ++ lo).extractLsb' s l = hi.extractLsb' (s - n) l := BitVec.extractLsb'_append_eq_of_le h

theorem slice_all (x : BitVec n) : x.extractLsb' 0 n = x := by
  apply BitVec.eq_of_getLsbD_eq
  intro i hi
  simp [hi]

/-- Two neighbouring slices are one. -/
theorem slice_join (x : BitVec w) (s m n : Nat) :
    x.extractLsb' (s + n) m ++ x.extractLsb' s n = x.extractLsb' s (m + n) := by
  apply BitVec.eq_of_getLsbD_eq
  intro i hi
  simp only [BitVec.getLsbD_append, BitVec.getLsbD_extractLsb', hi, decide_true, Bool.true_and]
  split
  · next h => simp [h]
  · next h =>
    have h1 : i - n < m := by omega
    have h2 : s + n + (i - n) = s + i := by omega
    simp [h1, h2]

/-! ## The fields of each format -/

theorem enc3R_slices (op : BitVec 17) (rk rj rd : BitVec 5) :
    (enc3R op rk rj rd).extractLsb' 0 5 = rd ∧ (enc3R op rk rj rd).extractLsb' 5 5 = rj ∧
    (enc3R op rk rj rd).extractLsb' 10 5 = rk ∧
    ∀ s l, 15 ≤ s → (enc3R op rk rj rd).extractLsb' s l = op.extractLsb' (s - 15) l := by
  unfold enc3R
  refine ⟨?_, ?_, ?_, fun s l h => ?_⟩
  · rw [slice_low _ _ _ _ (by omega), slice_all]
  · rw [slice_high _ _ _ _ (by omega), slice_low _ _ _ _ (by omega), slice_all]
  · rw [slice_high _ _ _ _ (by omega), slice_high _ _ _ _ (by omega), slice_low _ _ _ _ (by omega), slice_all]
  · rw [slice_high _ _ _ _ (by omega), slice_high _ _ _ _ (by omega), slice_high _ _ _ _ (by omega)]; rfl

theorem enc2RI12_slices (op : BitVec 10) (i : BitVec 12) (rj rd : BitVec 5) :
    (enc2RI12 op i rj rd).extractLsb' 0 5 = rd ∧ (enc2RI12 op i rj rd).extractLsb' 5 5 = rj ∧
    (enc2RI12 op i rj rd).extractLsb' 10 12 = i ∧
    ∀ s l, 22 ≤ s → (enc2RI12 op i rj rd).extractLsb' s l = op.extractLsb' (s - 22) l := by
  unfold enc2RI12
  refine ⟨?_, ?_, ?_, fun s l h => ?_⟩
  · rw [slice_low _ _ _ _ (by omega), slice_all]
  · rw [slice_high _ _ _ _ (by omega), slice_low _ _ _ _ (by omega), slice_all]
  · rw [slice_high _ _ _ _ (by omega), slice_high _ _ _ _ (by omega), slice_low _ _ _ _ (by omega), slice_all]
  · rw [slice_high _ _ _ _ (by omega), slice_high _ _ _ _ (by omega), slice_high _ _ _ _ (by omega)]; rfl

theorem enc2RI14_slices (op : BitVec 8) (i : BitVec 14) (rj rd : BitVec 5) :
    (enc2RI14 op i rj rd).extractLsb' 0 5 = rd ∧ (enc2RI14 op i rj rd).extractLsb' 5 5 = rj ∧
    (enc2RI14 op i rj rd).extractLsb' 10 14 = i ∧
    ∀ s l, 24 ≤ s → (enc2RI14 op i rj rd).extractLsb' s l = op.extractLsb' (s - 24) l := by
  unfold enc2RI14
  refine ⟨?_, ?_, ?_, fun s l h => ?_⟩
  · rw [slice_low _ _ _ _ (by omega), slice_all]
  · rw [slice_high _ _ _ _ (by omega), slice_low _ _ _ _ (by omega), slice_all]
  · rw [slice_high _ _ _ _ (by omega), slice_high _ _ _ _ (by omega), slice_low _ _ _ _ (by omega), slice_all]
  · rw [slice_high _ _ _ _ (by omega), slice_high _ _ _ _ (by omega), slice_high _ _ _ _ (by omega)]; rfl

theorem enc2RI16_slices (op : BitVec 6) (i : BitVec 16) (rj rd : BitVec 5) :
    (enc2RI16 op i rj rd).extractLsb' 0 5 = rd ∧ (enc2RI16 op i rj rd).extractLsb' 5 5 = rj ∧
    (enc2RI16 op i rj rd).extractLsb' 10 16 = i ∧
    ∀ s l, 26 ≤ s → (enc2RI16 op i rj rd).extractLsb' s l = op.extractLsb' (s - 26) l := by
  unfold enc2RI16
  refine ⟨?_, ?_, ?_, fun s l h => ?_⟩
  · rw [slice_low _ _ _ _ (by omega), slice_all]
  · rw [slice_high _ _ _ _ (by omega), slice_low _ _ _ _ (by omega), slice_all]
  · rw [slice_high _ _ _ _ (by omega), slice_high _ _ _ _ (by omega), slice_low _ _ _ _ (by omega), slice_all]
  · rw [slice_high _ _ _ _ (by omega), slice_high _ _ _ _ (by omega), slice_high _ _ _ _ (by omega)]; rfl

theorem enc1RI20_slices (op : BitVec 7) (i : BitVec 20) (rd : BitVec 5) :
    (enc1RI20 op i rd).extractLsb' 0 5 = rd ∧ (enc1RI20 op i rd).extractLsb' 5 20 = i ∧
    ∀ s l, 25 ≤ s → (enc1RI20 op i rd).extractLsb' s l = op.extractLsb' (s - 25) l := by
  unfold enc1RI20
  refine ⟨?_, ?_, fun s l h => ?_⟩
  · rw [slice_low _ _ _ _ (by omega), slice_all]
  · rw [slice_high _ _ _ _ (by omega), slice_low _ _ _ _ (by omega), slice_all]
  · rw [slice_high _ _ _ _ (by omega), slice_high _ _ _ _ (by omega)]; rfl

theorem encI26_slices (op : BitVec 6) (i : BitVec 26) :
    fieldOffs26 (encI26 op i) = i ∧
    ∀ s l, 26 ≤ s → (encI26 op i).extractLsb' s l = op.extractLsb' (s - 26) l := by
  unfold fieldOffs26 encI26
  refine ⟨?_, fun s l h => ?_⟩
  · rw [slice_low _ _ _ _ (by omega), slice_all, slice_high _ _ _ _ (by omega), slice_low _ _ _ _ (by omega), slice_all]
    exact (slice_join i 0 10 16).trans (slice_all i)
  · rw [slice_high _ _ _ _ (by omega), slice_high _ _ _ _ (by omega)]; rfl

theorem encI15_slices (op : BitVec 17) (i : BitVec 15) :
    (encI15 op i).extractLsb' 0 15 = i ∧
    ∀ s l, 15 ≤ s → (encI15 op i).extractLsb' s l = op.extractLsb' (s - 15) l := by
  unfold encI15
  refine ⟨?_, fun s l h => ?_⟩
  · rw [slice_low _ _ _ _ (by omega), slice_all]
  · rw [slice_high _ _ _ _ (by omega)]

theorem enc2R_slices (op : BitVec 22) (rj rd : BitVec 5) :
    (enc2R op rj rd).extractLsb' 0 5 = rd ∧ (enc2R op rj rd).extractLsb' 5 5 = rj ∧
    ∀ s l, 10 ≤ s → (enc2R op rj rd).extractLsb' s l = op.extractLsb' (s - 10) l := by
  unfold enc2R
  refine ⟨?_, ?_, fun s l h => ?_⟩
  · rw [slice_low _ _ _ _ (by omega), slice_all]
  · rw [slice_high _ _ _ _ (by omega), slice_low _ _ _ _ (by omega), slice_all]
  · rw [slice_high _ _ _ _ (by omega), slice_high _ _ _ _ (by omega)]; rfl

/-! ## A word is its fields -/

theorem word_eq_enc3R (w : Word) :
    enc3R (w.extractLsb' 15 17) (w.extractLsb' 10 5) (w.extractLsb' 5 5) (w.extractLsb' 0 5) = w := by
  unfold enc3R
  rw [slice_join w 10 _ 5, slice_join w 5 _ 5, slice_join w 0 _ 5]
  exact slice_all w

theorem word_eq_enc2RI12 (w : Word) :
    enc2RI12 (w.extractLsb' 22 10) (w.extractLsb' 10 12) (w.extractLsb' 5 5) (w.extractLsb' 0 5) = w := by
  unfold enc2RI12
  rw [slice_join w 10 _ 12, slice_join w 5 _ 5, slice_join w 0 _ 5]
  exact slice_all w

theorem word_eq_enc2RI14 (w : Word) :
    enc2RI14 (w.extractLsb' 24 8) (w.extractLsb' 10 14) (w.extractLsb' 5 5) (w.extractLsb' 0 5) = w := by
  unfold enc2RI14
  rw [slice_join w 10 _ 14, slice_join w 5 _ 5, slice_join w 0 _ 5]
  exact slice_all w

theorem word_eq_enc2RI16 (w : Word) :
    enc2RI16 (w.extractLsb' 26 6) (w.extractLsb' 10 16) (w.extractLsb' 5 5) (w.extractLsb' 0 5) = w := by
  unfold enc2RI16
  rw [slice_join w 10 _ 16, slice_join w 5 _ 5, slice_join w 0 _ 5]
  exact slice_all w

theorem word_eq_enc1RI20 (w : Word) :
    enc1RI20 (w.extractLsb' 25 7) (w.extractLsb' 5 20) (w.extractLsb' 0 5) = w := by
  unfold enc1RI20
  rw [slice_join w 5 _ 20, slice_join w 0 _ 5]
  exact slice_all w

theorem word_eq_encI26 (w : Word) : encI26 (w.extractLsb' 26 6) (fieldOffs26 w) = w := by
  unfold encI26 fieldOffs26
  rw [slice_low _ _ _ _ (by omega), slice_all, slice_high _ _ _ _ (by omega), slice_all, slice_join w 10 _ 16,
    slice_join w 0 _ 10]
  exact slice_all w

theorem word_eq_encI15 (w : Word) : encI15 (w.extractLsb' 15 17) (w.extractLsb' 0 15) = w := by
  unfold encI15
  rw [slice_join w 0 _ 15]
  exact slice_all w

theorem word_eq_enc2R (w : Word) : enc2R (w.extractLsb' 10 22) (w.extractLsb' 5 5) (w.extractLsb' 0 5) = w := by
  unfold enc2R
  rw [slice_join w 5 _ 5, slice_join w 0 _ 5]
  exact slice_all w

end Sys2Proof
end

