-- ==== Sys2Proof/Laws/Memory.lean ====
section
/-! SUPPORT. What the memory operations do: a read after a write, the canonical form kept, bytes of wider accesses. -/

namespace Sys2Proof.Machine

/-! ## Reading -/

@[simp] theorem Memory.read_nil (a : Nat) : Memory.read [] a = Memory.unlisted := rfl

theorem Memory.read_cons (k : Nat) (c : Byte) (m : Memory) (a : Nat) :
    Memory.read ((k, c) :: m) a = if a = k then c else Memory.read m a := rfl

theorem Memory.read_filter (m : Memory) (a b : Nat) :
    Memory.read (m.filter (fun c => c.1 != a)) b = if b = a then Memory.unlisted else Memory.read m b := by
  induction m with
  | nil => simp
  | cons c m ih =>
    obtain ⟨k, v⟩ := c
    by_cases hk : k = a
    · subst hk
      by_cases hb : b = k <;> simp_all [Memory.read_cons]
    · by_cases hb : b = k <;> simp_all [Memory.read_cons]

theorem Memory.read_insert (m : Memory) (a : Nat) (v : Byte) (b : Nat) (h : ∀ c ∈ m, c.1 ≠ a) :
    Memory.read (Memory.insert m a v) b = if b = a then v else Memory.read m b := by
  induction m with
  | nil => simp [Memory.insert, Memory.read_cons]
  | cons c m ih =>
    obtain ⟨k, w⟩ := c
    have hk : k ≠ a := h (k, w) (by simp)
    have ih := ih (fun c hc => h c (by simp [hc]))
    unfold Memory.insert
    split
    · simp [Memory.read_cons]
    · simp only [Memory.read_cons, ih]
      split
      · subst_vars; simp [hk]
      · rfl

/-- A read after a write of one byte: the byte written there, elsewhere what was there before. -/
theorem Memory.read_write (m : Memory) (a : Nat) (v : Byte) (b : Nat) :
    Memory.read (Memory.write m a v) b = if b = a then v else Memory.read m b := by
  have others : ∀ c ∈ m.filter (fun c => c.1 != a), c.1 ≠ a := by simp
  unfold Memory.write
  simp only
  split
  · next hv => rw [Memory.read_filter, hv]
  · rw [Memory.read_insert _ _ _ _ others, Memory.read_filter]
    split <;> rfl

@[simp] theorem Memory.read_write_same (m : Memory) (a : Nat) (v : Byte) :
    Memory.read (Memory.write m a v) a = v := by simp [Memory.read_write]

theorem Memory.read_write_other (m : Memory) (a : Nat) (v : Byte) (b : Nat) (h : b ≠ a) :
    Memory.read (Memory.write m a v) b = Memory.read m b := by simp [Memory.read_write, h]

/-- A read after a write of several bytes. -/
theorem Memory.read_writeBytes (m : Memory) (a : Nat) (bs : List Byte) (b : Nat) :
    Memory.read (Memory.writeBytes m a bs) b =
      if a ≤ b then (bs[b - a]?).getD (Memory.read m b) else Memory.read m b := by
  induction bs generalizing m a with
  | nil => simp [Memory.writeBytes]
  | cons v bs ih =>
    rw [Memory.writeBytes, ih, Memory.read_write]
    by_cases hab : a = b
    · subst hab; simp
    · by_cases hlt : a + 1 ≤ b
      · have h1 : a ≤ b := by omega
        have h2 : b - a = (b - (a + 1)) + 1 := by omega
        have h3 : b ≠ a := by omega
        simp [hlt, h1, h2, h3]
      · have h1 : ¬ a ≤ b := by omega
        have h3 : b ≠ a := by omega
        simp [hlt, h1, h3]

theorem Memory.read_writeBytes_in (m : Memory) (a : Nat) (bs : List Byte) (k : Nat) (h : k < bs.length) :
    Memory.read (Memory.writeBytes m a bs) (a + k) = bs[k] := by
  rw [Memory.read_writeBytes]; simp [h]

theorem Memory.read_writeBytes_out (m : Memory) (a : Nat) (bs : List Byte) (b : Nat)
    (h : b < a ∨ a + bs.length ≤ b) : Memory.read (Memory.writeBytes m a bs) b = Memory.read m b := by
  rw [Memory.read_writeBytes]
  split
  · have : bs.length ≤ b - a := by omega
    simp [this]
  · rfl

@[simp] theorem Memory.readBytes_length (m : Memory) (a n : Nat) : (Memory.readBytes m a n).length = n := by
  simp [Memory.readBytes]

@[simp] theorem Memory.readBytes_get (m : Memory) (a n k : Nat) (h : k < (Memory.readBytes m a n).length) :
    (Memory.readBytes m a n)[k] = Memory.read m (a + k) := by simp [Memory.readBytes]

@[simp] theorem storeBytes_length (n : Nat) (v : Word) : (storeBytes n v).length = n := by simp [storeBytes]

@[simp] theorem storeBytes_get (n : Nat) (v : Word) (k : Nat) (h : k < (storeBytes n v).length) :
    (storeBytes n v)[k] = v.extractLsb' (8 * k) 8 := by simp [storeBytes]

/-- The four bytes of a word, the highest first, are the word. -/
theorem bytes_of_word (v : Word) :
    v.extractLsb' 24 8 ++ v.extractLsb' 16 8 ++ v.extractLsb' 8 8 ++ v.extractLsb' 0 8 = v := by
  apply BitVec.eq_of_getLsbD_eq
  intro i hi
  simp only [BitVec.getLsbD_append, BitVec.getLsbD_extractLsb']
  have : i - 8 - 8 - 8 < 8 := by omega
  split_ifs <;> simp only [*, decide_true, Bool.true_and] <;> (congr 1; omega)

/-- Two neighbouring bytes of a word are a halfword of it. -/
theorem bytes_of_half (v : Word) (k : Nat) :
    v.extractLsb' (k + 8) 8 ++ v.extractLsb' k 8 = v.extractLsb' k 16 := by
  apply BitVec.eq_of_getLsbD_eq
  intro i hi
  simp only [BitVec.getLsbD_append, BitVec.getLsbD_extractLsb']
  have : i - 8 < 8 := by omega
  split_ifs <;> simp only [*, decide_true, Bool.true_and]; congr 1; omega

/-! ## The canonical form -/

theorem Memory.wf_nil : Memory.wf [] := by simp [Memory.wf]

theorem Memory.mem_insert (m : Memory) (a : Nat) (v : Byte) (c : Host.Cell) :
    c ∈ Memory.insert m a v ↔ c = (a, v) ∨ c ∈ m := by
  induction m with
  | nil => simp [Memory.insert]
  | cons d m ih =>
    obtain ⟨k, w⟩ := d
    unfold Memory.insert
    split
    · simp
    · simp only [List.mem_cons, ih]; tauto

/-- A cell after a write is the one written or one that stood before. -/
theorem Memory.mem_write (m : Memory) (a : Nat) (v : Byte) (c : Host.Cell) (h : c ∈ Memory.write m a v) :
    c = (a, v) ∨ c ∈ m := by
  unfold Memory.write at h
  simp only at h
  split at h
  · exact .inr (List.mem_filter.mp h).1
  · rcases (Memory.mem_insert _ _ _ _).mp h with h | h
    · exact .inl h
    · exact .inr (List.mem_filter.mp h).1

theorem Memory.wf_filter (m : Memory) (p : Host.Cell → Bool) (h : Memory.wf m) : Memory.wf (m.filter p) := by
  refine ⟨?_, fun c hc => h.2 c (List.mem_filter.mp hc).1⟩
  exact h.1.sublist (List.filter_sublist.map _)

theorem Memory.wf_insert (m : Memory) (a : Nat) (v : Byte) (h : Memory.wf m) (others : ∀ c ∈ m, c.1 ≠ a)
    (hv : v ≠ Memory.unlisted) : Memory.wf (Memory.insert m a v) := by
  refine ⟨?_, fun c hc => ?_⟩
  · obtain ⟨h, -⟩ := h
    induction m with
    | nil => simp [Memory.insert]
    | cons d m ih =>
      obtain ⟨k, w⟩ := d
      simp only [List.map_cons, List.pairwise_cons] at h
      have hk : k ≠ a := others (k, w) (by simp)
      have ih := ih (fun c hc => others c (by simp [hc])) h.2
      unfold Memory.insert
      split
      · next hlt =>
        simp only [List.map_cons, List.pairwise_cons, List.mem_cons, forall_eq_or_imp]
        exact ⟨⟨hlt, fun b hb => Nat.lt_trans hlt (h.1 b hb)⟩, h.1, h.2⟩
      · next hlt =>
        simp only [List.map_cons, List.pairwise_cons]
        refine ⟨fun b hb => ?_, ih⟩
        obtain ⟨c, hc, rfl⟩ := List.mem_map.mp hb
        rcases (Memory.mem_insert _ _ _ _).mp hc with rfl | hc
        · simp only; omega
        · exact h.1 _ (List.mem_map.mpr ⟨c, hc, rfl⟩)
  · rcases (Memory.mem_insert _ _ _ _).mp hc with rfl | hc
    · exact hv
    · exact h.2 c hc

/-- A write keeps the canonical form. -/
theorem Memory.wf_write (m : Memory) (a : Nat) (v : Byte) (h : Memory.wf m) : Memory.wf (Memory.write m a v) := by
  have hf := Memory.wf_filter m (fun c => c.1 != a) h
  unfold Memory.write
  simp only
  split
  · exact hf
  · next hv => exact Memory.wf_insert _ _ _ hf (by simp) hv

theorem Memory.wf_writeBytes (m : Memory) (a : Nat) (bs : List Byte) (h : Memory.wf m) :
    Memory.wf (Memory.writeBytes m a bs) := by
  induction bs generalizing m a with
  | nil => exact h
  | cons b bs ih => exact ih _ _ (Memory.wf_write m a b h)

/-- A cell after a write of several bytes stands in the written range or stood before. -/
theorem Memory.mem_writeBytes (m : Memory) (a : Nat) (bs : List Byte) (c : Host.Cell)
    (h : c ∈ Memory.writeBytes m a bs) : (a ≤ c.1 ∧ c.1 < a + bs.length) ∨ c ∈ m := by
  induction bs generalizing m a with
  | nil => exact .inr h
  | cons b bs ih =>
    rcases ih _ _ h with h | h
    · left; simp only [List.length_cons]; omega
    · rcases Memory.mem_write _ _ _ _ h with rfl | h
      · left; simp
      · exact .inr h

/-! ## Writes where some of the bytes are devices' -/

/-- A read after such a write: a device's byte of memory is as before, any other as after a write of several bytes. -/
theorem Memory.read_writeStorage (p : Config.Platform) (m : Memory) (a : Nat) (bs : List Byte) (b : Nat) :
    Memory.read (Memory.writeStorage p m a bs) b =
      if deviceAt p b = true then Memory.read m b else Memory.read (Memory.writeBytes m a bs) b := by
  induction bs generalizing m a with
  | nil => simp [Memory.writeStorage, Memory.writeBytes]
  | cons v bs ih =>
    rw [Memory.writeStorage, Memory.writeBytes, ih]
    by_cases hb : deviceAt p b = true
    · rw [if_pos hb, if_pos hb]
      by_cases ha : deviceAt p a = true
      · rw [if_pos ha]
      · rw [if_neg ha, Memory.read_write_other _ _ _ _ (by rintro rfl; exact ha hb)]
    · rw [if_neg hb, if_neg hb]
      by_cases ha : deviceAt p a = true
      · have hab : b ≠ a := by rintro rfl; exact hb ha
        rw [if_pos ha, Memory.read_writeBytes, Memory.read_writeBytes, Memory.read_write_other _ _ _ _ hab]
      · rw [if_neg ha]

theorem Memory.wf_writeStorage (p : Config.Platform) (m : Memory) (a : Nat) (bs : List Byte) (h : Memory.wf m) :
    Memory.wf (Memory.writeStorage p m a bs) := by
  induction bs generalizing m a with
  | nil => exact h
  | cons b bs ih =>
    apply ih
    cases deviceAt p a
    · exact Memory.wf_write m a b h
    · exact h

/-- A cell after such a write stands in the written range or stood before. -/
theorem Memory.mem_writeStorage (p : Config.Platform) (m : Memory) (a : Nat) (bs : List Byte) (c : Host.Cell)
    (h : c ∈ Memory.writeStorage p m a bs) : (a ≤ c.1 ∧ c.1 < a + bs.length) ∨ c ∈ m := by
  induction bs generalizing m a with
  | nil => exact .inr h
  | cons b bs ih =>
    rcases ih _ _ h with h | h
    · left; simp only [List.length_cons]; omega
    · cases hd : deviceAt p a
      · rw [hd] at h
        rcases Memory.mem_write _ _ _ _ h with rfl | h
        · left; simp
        · exact .inr h
      · rw [hd] at h; exact .inr h

theorem State.reset_memory_wf : Memory.wf State.reset.mem := Memory.wf_nil

end Sys2Proof.Machine
end

