-- ==== Sys2Proof/Laws/State.lean ====
section
/-! SUPPORT. One lemma per field of the state and per update: what the update makes of the field. -/

namespace Sys2Proof.Machine


/-! ## setPc -/

@[simp] theorem State.setPc_gr (s : State) (t : Word) : (s.setPc t).gr = s.gr := rfl
@[simp] theorem State.setPc_pc (s : State) (t : Word) : (s.setPc t).pc = t := rfl
@[simp] theorem State.setPc_plv (s : State) (t : Word) : (s.setPc t).plv = s.plv := rfl
@[simp] theorem State.setPc_llbit (s : State) (t : Word) : (s.setPc t).llbit = s.llbit := rfl
@[simp] theorem State.setPc_lladdr (s : State) (t : Word) : (s.setPc t).lladdr = s.lladdr := rfl
@[simp] theorem State.setPc_stableCounter (s : State) (t : Word) : (s.setPc t).stableCounter = s.stableCounter := rfl
@[simp] theorem State.setPc_counterId (s : State) (t : Word) : (s.setPc t).counterId = s.counterId := rfl
@[simp] theorem State.setPc_mem (s : State) (t : Word) : (s.setPc t).mem = s.mem := rfl
@[simp] theorem State.setPc_unsynced (s : State) (t : Word) : (s.setPc t).unsynced = s.unsynced := rfl
@[simp] theorem State.setPc_deviceAccesses (s : State) (t : Word) : (s.setPc t).deviceAccesses = s.deviceAccesses := rfl
@[simp] theorem State.setPc_incoming (s : State) (t : Word) : (s.setPc t).incoming = s.incoming := rfl
@[simp] theorem State.setPc_trap (s : State) (t : Word) : (s.setPc t).trap = s.trap := rfl
@[simp] theorem State.setPc_platform (s : State) (t : Word) : (s.setPc t).platform = s.platform := rfl
@[simp] theorem State.setPc_draws (s : State) (t : Word) : (s.setPc t).draws = s.draws := rfl

/-! ## advance -/

@[simp] theorem State.advance_gr (s : State) : (s.advance).gr = s.gr := rfl
@[simp] theorem State.advance_pc (s : State) : (s.advance).pc = s.pc + 4 := rfl
@[simp] theorem State.advance_plv (s : State) : (s.advance).plv = s.plv := rfl
@[simp] theorem State.advance_llbit (s : State) : (s.advance).llbit = s.llbit := rfl
@[simp] theorem State.advance_lladdr (s : State) : (s.advance).lladdr = s.lladdr := rfl
@[simp] theorem State.advance_stableCounter (s : State) : (s.advance).stableCounter = s.stableCounter := rfl
@[simp] theorem State.advance_counterId (s : State) : (s.advance).counterId = s.counterId := rfl
@[simp] theorem State.advance_mem (s : State) : (s.advance).mem = s.mem := rfl
@[simp] theorem State.advance_unsynced (s : State) : (s.advance).unsynced = s.unsynced := rfl
@[simp] theorem State.advance_deviceAccesses (s : State) : (s.advance).deviceAccesses = s.deviceAccesses := rfl
@[simp] theorem State.advance_incoming (s : State) : (s.advance).incoming = s.incoming := rfl
@[simp] theorem State.advance_trap (s : State) : (s.advance).trap = s.trap := rfl
@[simp] theorem State.advance_platform (s : State) : (s.advance).platform = s.platform := rfl
@[simp] theorem State.advance_draws (s : State) : (s.advance).draws = s.draws := rfl

/-! ## setReservation -/

@[simp] theorem State.setReservation_gr (s : State) (b : Bool) (a : Word) : (s.setReservation b a).gr = s.gr := rfl
@[simp] theorem State.setReservation_pc (s : State) (b : Bool) (a : Word) : (s.setReservation b a).pc = s.pc := rfl
@[simp] theorem State.setReservation_plv (s : State) (b : Bool) (a : Word) : (s.setReservation b a).plv = s.plv := rfl
@[simp] theorem State.setReservation_llbit (s : State) (b : Bool) (a : Word) : (s.setReservation b a).llbit = b := rfl
@[simp] theorem State.setReservation_lladdr (s : State) (b : Bool) (a : Word) : (s.setReservation b a).lladdr = a := rfl
@[simp] theorem State.setReservation_stableCounter (s : State) (b : Bool) (a : Word) : (s.setReservation b a).stableCounter = s.stableCounter := rfl
@[simp] theorem State.setReservation_counterId (s : State) (b : Bool) (a : Word) : (s.setReservation b a).counterId = s.counterId := rfl
@[simp] theorem State.setReservation_mem (s : State) (b : Bool) (a : Word) : (s.setReservation b a).mem = s.mem := rfl
@[simp] theorem State.setReservation_unsynced (s : State) (b : Bool) (a : Word) : (s.setReservation b a).unsynced = s.unsynced := rfl
@[simp] theorem State.setReservation_deviceAccesses (s : State) (b : Bool) (a : Word) : (s.setReservation b a).deviceAccesses = s.deviceAccesses := rfl
@[simp] theorem State.setReservation_incoming (s : State) (b : Bool) (a : Word) : (s.setReservation b a).incoming = s.incoming := rfl
@[simp] theorem State.setReservation_trap (s : State) (b : Bool) (a : Word) : (s.setReservation b a).trap = s.trap := rfl
@[simp] theorem State.setReservation_platform (s : State) (b : Bool) (a : Word) : (s.setReservation b a).platform = s.platform := rfl
@[simp] theorem State.setReservation_draws (s : State) (b : Bool) (a : Word) : (s.setReservation b a).draws = s.draws := rfl

/-! ## drawn -/

@[simp] theorem State.drawn_gr (s : State) : (s.drawn).gr = s.gr := rfl
@[simp] theorem State.drawn_pc (s : State) : (s.drawn).pc = s.pc := rfl
@[simp] theorem State.drawn_plv (s : State) : (s.drawn).plv = s.plv := rfl
@[simp] theorem State.drawn_llbit (s : State) : (s.drawn).llbit = s.llbit := rfl
@[simp] theorem State.drawn_lladdr (s : State) : (s.drawn).lladdr = s.lladdr := rfl
@[simp] theorem State.drawn_stableCounter (s : State) : (s.drawn).stableCounter = s.stableCounter := rfl
@[simp] theorem State.drawn_counterId (s : State) : (s.drawn).counterId = s.counterId := rfl
@[simp] theorem State.drawn_mem (s : State) : (s.drawn).mem = s.mem := rfl
@[simp] theorem State.drawn_unsynced (s : State) : (s.drawn).unsynced = s.unsynced := rfl
@[simp] theorem State.drawn_deviceAccesses (s : State) : (s.drawn).deviceAccesses = s.deviceAccesses := rfl
@[simp] theorem State.drawn_incoming (s : State) : (s.drawn).incoming = s.incoming := rfl
@[simp] theorem State.drawn_trap (s : State) : (s.drawn).trap = s.trap := rfl
@[simp] theorem State.drawn_platform (s : State) : (s.drawn).platform = s.platform := rfl
@[simp] theorem State.drawn_draws (s : State) : (s.drawn).draws = s.draws + 1 := rfl

/-! ## store -/

@[simp] theorem State.store_gr (s : State) (a : Nat) (bs : List Byte) : (s.store a bs).gr = s.gr := rfl
@[simp] theorem State.store_pc (s : State) (a : Nat) (bs : List Byte) : (s.store a bs).pc = s.pc := rfl
@[simp] theorem State.store_plv (s : State) (a : Nat) (bs : List Byte) : (s.store a bs).plv = s.plv := rfl
@[simp] theorem State.store_llbit (s : State) (a : Nat) (bs : List Byte) : (s.store a bs).llbit = s.llbit := rfl
@[simp] theorem State.store_lladdr (s : State) (a : Nat) (bs : List Byte) : (s.store a bs).lladdr = s.lladdr := rfl
@[simp] theorem State.store_stableCounter (s : State) (a : Nat) (bs : List Byte) : (s.store a bs).stableCounter = s.stableCounter := rfl
@[simp] theorem State.store_counterId (s : State) (a : Nat) (bs : List Byte) : (s.store a bs).counterId = s.counterId := rfl
@[simp] theorem State.store_mem (s : State) (a : Nat) (bs : List Byte) : (s.store a bs).mem = Memory.writeStorage s.platform s.mem a bs := rfl
@[simp] theorem State.store_unsynced (s : State) (a : Nat) (bs : List Byte) : (s.store a bs).unsynced = (if touchesStorage s.platform a bs.length then ⟨a, Memory.readBytes s.mem a bs.length⟩ :: s.unsynced else s.unsynced) := rfl
@[simp] theorem State.store_deviceAccesses (s : State) (a : Nat) (bs : List Byte) : (s.store a bs).deviceAccesses = s.deviceAccesses := rfl
@[simp] theorem State.store_incoming (s : State) (a : Nat) (bs : List Byte) : (s.store a bs).incoming = s.incoming := rfl
@[simp] theorem State.store_trap (s : State) (a : Nat) (bs : List Byte) : (s.store a bs).trap = s.trap := rfl
@[simp] theorem State.store_platform (s : State) (a : Nat) (bs : List Byte) : (s.store a bs).platform = s.platform := rfl
@[simp] theorem State.store_draws (s : State) (a : Nat) (bs : List Byte) : (s.store a bs).draws = s.draws := rfl

/-! ## loaded -/

@[simp] theorem State.loaded_gr (s : State) (a n : Nat) : (s.loaded a n).gr = s.gr := rfl
@[simp] theorem State.loaded_pc (s : State) (a n : Nat) : (s.loaded a n).pc = s.pc := rfl
@[simp] theorem State.loaded_plv (s : State) (a n : Nat) : (s.loaded a n).plv = s.plv := rfl
@[simp] theorem State.loaded_llbit (s : State) (a n : Nat) : (s.loaded a n).llbit = s.llbit := rfl
@[simp] theorem State.loaded_lladdr (s : State) (a n : Nat) : (s.loaded a n).lladdr = s.lladdr := rfl
@[simp] theorem State.loaded_stableCounter (s : State) (a n : Nat) : (s.loaded a n).stableCounter = s.stableCounter := rfl
@[simp] theorem State.loaded_counterId (s : State) (a n : Nat) : (s.loaded a n).counterId = s.counterId := rfl
@[simp] theorem State.loaded_mem (s : State) (a n : Nat) : (s.loaded a n).mem = s.mem := rfl
@[simp] theorem State.loaded_unsynced (s : State) (a n : Nat) : (s.loaded a n).unsynced = s.unsynced := rfl
@[simp] theorem State.loaded_deviceAccesses (s : State) (a n : Nat) : (s.loaded a n).deviceAccesses = (if touchesDevice s.platform a n then .load a n :: s.deviceAccesses else s.deviceAccesses) := rfl
@[simp] theorem State.loaded_incoming (s : State) (a n : Nat) : (s.loaded a n).incoming = s.incoming := rfl
@[simp] theorem State.loaded_trap (s : State) (a n : Nat) : (s.loaded a n).trap = s.trap := rfl
@[simp] theorem State.loaded_platform (s : State) (a n : Nat) : (s.loaded a n).platform = s.platform := rfl
@[simp] theorem State.loaded_draws (s : State) (a n : Nat) : (s.loaded a n).draws = (if touchesDevice s.platform a n then s.draws + 1 else s.draws) := rfl

/-! ## stored -/

@[simp] theorem State.stored_gr (s : State) (a : Nat) (bs : List Byte) : (s.stored a bs).gr = s.gr := rfl
@[simp] theorem State.stored_pc (s : State) (a : Nat) (bs : List Byte) : (s.stored a bs).pc = s.pc := rfl
@[simp] theorem State.stored_plv (s : State) (a : Nat) (bs : List Byte) : (s.stored a bs).plv = s.plv := rfl
@[simp] theorem State.stored_llbit (s : State) (a : Nat) (bs : List Byte) : (s.stored a bs).llbit = s.llbit := rfl
@[simp] theorem State.stored_lladdr (s : State) (a : Nat) (bs : List Byte) : (s.stored a bs).lladdr = s.lladdr := rfl
@[simp] theorem State.stored_stableCounter (s : State) (a : Nat) (bs : List Byte) : (s.stored a bs).stableCounter = s.stableCounter := rfl
@[simp] theorem State.stored_counterId (s : State) (a : Nat) (bs : List Byte) : (s.stored a bs).counterId = s.counterId := rfl
@[simp] theorem State.stored_mem (s : State) (a : Nat) (bs : List Byte) : (s.stored a bs).mem = Memory.writeStorage s.platform s.mem a bs := rfl
@[simp] theorem State.stored_unsynced (s : State) (a : Nat) (bs : List Byte) : (s.stored a bs).unsynced = (if touchesStorage s.platform a bs.length then ⟨a, Memory.readBytes s.mem a bs.length⟩ :: s.unsynced else s.unsynced) := rfl
@[simp] theorem State.stored_deviceAccesses (s : State) (a : Nat) (bs : List Byte) : (s.stored a bs).deviceAccesses = (if touchesDevice s.platform a bs.length then .store a bs :: s.deviceAccesses else s.deviceAccesses) := rfl
@[simp] theorem State.stored_incoming (s : State) (a : Nat) (bs : List Byte) : (s.stored a bs).incoming = s.incoming := rfl
@[simp] theorem State.stored_trap (s : State) (a : Nat) (bs : List Byte) : (s.stored a bs).trap = s.trap := rfl
@[simp] theorem State.stored_platform (s : State) (a : Nat) (bs : List Byte) : (s.stored a bs).platform = s.platform := rfl
@[simp] theorem State.stored_draws (s : State) (a : Nat) (bs : List Byte) : (s.stored a bs).draws = s.draws := rfl

/-! ## raise -/

@[simp] theorem raise_gr (e : Exception) (s : State) : (raise e s).gr = s.gr := rfl
@[simp] theorem raise_pc (e : Exception) (s : State) : (raise e s).pc = s.pc := rfl
@[simp] theorem raise_plv (e : Exception) (s : State) : (raise e s).plv = s.plv := rfl
@[simp] theorem raise_llbit (e : Exception) (s : State) : (raise e s).llbit = s.llbit := rfl
@[simp] theorem raise_lladdr (e : Exception) (s : State) : (raise e s).lladdr = s.lladdr := rfl
@[simp] theorem raise_stableCounter (e : Exception) (s : State) : (raise e s).stableCounter = s.stableCounter := rfl
@[simp] theorem raise_counterId (e : Exception) (s : State) : (raise e s).counterId = s.counterId := rfl
@[simp] theorem raise_mem (e : Exception) (s : State) : (raise e s).mem = s.mem := rfl
@[simp] theorem raise_unsynced (e : Exception) (s : State) : (raise e s).unsynced = s.unsynced := rfl
@[simp] theorem raise_deviceAccesses (e : Exception) (s : State) : (raise e s).deviceAccesses = s.deviceAccesses := rfl
@[simp] theorem raise_incoming (e : Exception) (s : State) : (raise e s).incoming = s.incoming := rfl
@[simp] theorem raise_trap (e : Exception) (s : State) : (raise e s).trap = some ⟨e, s.pc⟩ := rfl
@[simp] theorem raise_platform (e : Exception) (s : State) : (raise e s).platform = s.platform := rfl
@[simp] theorem raise_draws (e : Exception) (s : State) : (raise e s).draws = s.draws := rfl

/-! ## writeGr -/

@[simp] theorem State.writeGr_pc (s : State) (r : RegNum) (v : Word) : (s.writeGr r v).pc = s.pc := by
  unfold State.writeGr; split <;> rfl
@[simp] theorem State.writeGr_plv (s : State) (r : RegNum) (v : Word) : (s.writeGr r v).plv = s.plv := by
  unfold State.writeGr; split <;> rfl
@[simp] theorem State.writeGr_llbit (s : State) (r : RegNum) (v : Word) : (s.writeGr r v).llbit = s.llbit := by
  unfold State.writeGr; split <;> rfl
@[simp] theorem State.writeGr_lladdr (s : State) (r : RegNum) (v : Word) : (s.writeGr r v).lladdr = s.lladdr := by
  unfold State.writeGr; split <;> rfl
@[simp] theorem State.writeGr_stableCounter (s : State) (r : RegNum) (v : Word) : (s.writeGr r v).stableCounter = s.stableCounter := by
  unfold State.writeGr; split <;> rfl
@[simp] theorem State.writeGr_counterId (s : State) (r : RegNum) (v : Word) : (s.writeGr r v).counterId = s.counterId := by
  unfold State.writeGr; split <;> rfl
@[simp] theorem State.writeGr_mem (s : State) (r : RegNum) (v : Word) : (s.writeGr r v).mem = s.mem := by
  unfold State.writeGr; split <;> rfl
@[simp] theorem State.writeGr_unsynced (s : State) (r : RegNum) (v : Word) : (s.writeGr r v).unsynced = s.unsynced := by
  unfold State.writeGr; split <;> rfl
@[simp] theorem State.writeGr_deviceAccesses (s : State) (r : RegNum) (v : Word) : (s.writeGr r v).deviceAccesses = s.deviceAccesses := by
  unfold State.writeGr; split <;> rfl
@[simp] theorem State.writeGr_incoming (s : State) (r : RegNum) (v : Word) : (s.writeGr r v).incoming = s.incoming := by
  unfold State.writeGr; split <;> rfl
@[simp] theorem State.writeGr_trap (s : State) (r : RegNum) (v : Word) : (s.writeGr r v).trap = s.trap := by
  unfold State.writeGr; split <;> rfl
@[simp] theorem State.writeGr_platform (s : State) (r : RegNum) (v : Word) : (s.writeGr r v).platform = s.platform := by
  unfold State.writeGr; split <;> rfl
@[simp] theorem State.writeGr_draws (s : State) (r : RegNum) (v : Word) : (s.writeGr r v).draws = s.draws := by
  unfold State.writeGr; split <;> rfl

/-! ## The register file -/

/-- Two states with the same registers read the same. -/
theorem State.readGr_congr (s t : State) (h : t.gr = s.gr) (r : RegNum) : t.readGr r = s.readGr r := by
  simp only [State.readGr, h]

@[simp] theorem State.readGr_zero (s : State) : s.readGr 0#5 = 0#32 := rfl

@[simp] theorem State.writeGr_zero (s : State) (v : Word) : s.writeGr 0#5 v = s := rfl

/-- A read after a write: r0 reads 0, the register written reads the value, the others read as before (R21). -/
theorem State.readGr_writeGr (s : State) (r : RegNum) (v : Word) (q : RegNum) :
    (s.writeGr r v).readGr q = if q = 0 then 0 else if q = r then v else s.readGr q := by
  by_cases hq : q = 0
  · subst hq; rfl
  · by_cases hr : r = 0
    · subst hr; simp only [hq, if_false]; rfl
    · have q0 : q.toNat ≠ 0 := fun h => hq (BitVec.eq_of_toNat_eq (by simpa using h))
      have r0 : r.toNat ≠ 0 := fun h => hr (BitVec.eq_of_toNat_eq (by simpa using h))
      have hlt : r.toNat - 1 < 31 := by have := r.isLt; omega
      have hlq : q.toNat - 1 < 31 := by have := q.isLt; omega
      simp only [State.readGr, State.writeGr, hq, hr, if_false]
      by_cases h : q = r
      · subst h; simp [Vector.getD, hlq]
      · have hne : q.toNat - 1 ≠ r.toNat - 1 := fun e => h (BitVec.eq_of_toNat_eq (by omega))
        simp [Vector.getD, hlq, h, Ne.symm hne]

@[simp] theorem State.readGr_setPc (s : State) (t : Word) (r : RegNum) : (s.setPc t).readGr r = s.readGr r := rfl
@[simp] theorem State.readGr_advance (s : State) (r : RegNum) : (s.advance).readGr r = s.readGr r := rfl
@[simp] theorem State.readGr_setReservation (s : State) (b : Bool) (a : Word) (r : RegNum) : (s.setReservation b a).readGr r = s.readGr r := rfl
@[simp] theorem State.readGr_drawn (s : State) (r : RegNum) : (s.drawn).readGr r = s.readGr r := rfl
@[simp] theorem State.readGr_store (s : State) (a : Nat) (bs : List Byte) (r : RegNum) : (s.store a bs).readGr r = s.readGr r := rfl
@[simp] theorem State.readGr_loaded (s : State) (a n : Nat) (r : RegNum) : (s.loaded a n).readGr r = s.readGr r := rfl
@[simp] theorem State.readGr_stored (s : State) (a : Nat) (bs : List Byte) (r : RegNum) : (s.stored a bs).readGr r = s.readGr r := rfl
@[simp] theorem readGr_raise (e : Exception) (s : State) (r : RegNum) : (raise e s).readGr r = s.readGr r := rfl

end Sys2Proof.Machine
end

