-- ==== Sys2Proof/Laws/Ops.lean ====
section
/-! SUPPORT. One lemma for each shared operation that says once everything it can do; later proofs cite it and do not unfold
the operation. -/

namespace Sys2Proof.Machine

open Sys2Proof.Safety

/-! ## The map -/

theorem accessRefusal_eq_none (p : Config.Platform) (kind : AccessKind) (a n : Nat) :
    accessRefusal p kind a n = none ↔ Accessible p kind a n := by
  simp [accessRefusal, Accessible, List.findSome?_eq_none_iff]

/-- A refused access names a byte of the access and its reason. -/
theorem accessRefusal_eq_some (p : Config.Platform) (kind : AccessKind) (a n : Nat) (r : Refusal)
    (h : accessRefusal p kind a n = some r) : ∃ k, k < n ∧ byteRefusal p kind (a + k) = some r := by
  obtain ⟨k, hk, h⟩ := List.exists_of_findSome?_eq_some h
  exact ⟨k, List.mem_range.mp hk, h⟩

theorem accessCached_iff (p : Config.Platform) (a n : Nat) : accessCached p a n = true ↔ Cached p a n := by
  simp [accessCached, Cached]

theorem misaligned_eq_false (a : Word) (n : Nat) : misaligned a n = false ↔ Aligned a n := by
  simp [misaligned, Aligned]

theorem misaligned_eq_true (a : Word) (n : Nat) : misaligned a n = true ↔ ¬Aligned a n := by
  simp [misaligned, Aligned]

/-- A byte that can be accessed is at most ADDR_MAX (R41). -/
theorem byteRefusal_none_le (p : Config.Platform) (kind : AccessKind) (a : Nat) (h : byteRefusal p kind a = none) :
    a ≤ p.addrMax.toNat := by
  by_contra hlt
  simp [byteRefusal, regionAt, hlt] at h

/-- An access of at least one byte that can be made ends at most at ADDR_MAX. -/
theorem Accessible_end_le (p : Config.Platform) (kind : AccessKind) (a n : Nat) (h : Accessible p kind a n) (hn : 0 < n) :
    a + n ≤ p.addrMax.toNat + 1 := by
  have := byteRefusal_none_le p kind (a + (n - 1)) (h (n - 1) (by omega))
  omega

/-- What may be written may be read. -/
theorem Accessible_read (p : Config.Platform) (a n : Nat) (h : Accessible p .write a n) : Accessible p .read a n := by
  intro k hk
  have := h k hk
  unfold byteRefusal at this ⊢
  cases hr : regionAt p (a + k) with
  | none => simp [hr] at this
  | some r =>
    rw [hr] at this
    cases hm : matOfField r.mat <;> cases hb : r.backing <;> simp_all

/-- A byte of read-only storage may be read, and a write of it is refused by that name. -/
theorem byteRefusal_readOnly (p : Config.Platform) (a n k : Nat) (h : ReadOnly p a n) (hk : k < n) :
    byteRefusal p .read (a + k) = none ∧ byteRefusal p .write (a + k) = some (.readOnly (a + k)) := by
  obtain ⟨r, hr, hm, hb⟩ := h k hk
  simp only [byteRefusal, hr, hb]
  cases hm' : matOfField r.mat with
  | none => exact absurd hm' hm
  | some m => simp

theorem matOfField_eq_none (f : BitVec 2) : matOfField f = none ↔ f = 2 ∨ f = 3 := by
  revert f; decide

theorem exposesDevice_iff (r : Config.Region) : exposesDevice r = true ↔ Exposed r := by
  obtain ⟨base, size, mat, backing⟩ := r
  simp only [exposesDevice, Exposed]
  cases backing with
  | storage => simp
  | readOnly => simp
  | device readSensitive fetchable => revert mat readSensitive fetchable; decide

/-- Everything a refused platform can be: one with a reserved MAT value, or one with none and an exposed device. -/
theorem platformRefusal_cases (p : Config.Platform) (x : Refusal) (h : platformRefusal p = some x) :
    (∃ r ∈ p.regions, matOfField r.mat = none ∧ x = .reservedConfiguration r.mat) ∨
    ((∀ r ∈ p.regions, matOfField r.mat ≠ none) ∧ ∃ r ∈ p.regions, Exposed r ∧ x = .exposedDevice r.base) := by
  unfold platformRefusal at h
  cases hr : reservedRegion p with
  | some r =>
    rw [hr] at h
    exact .inl ⟨r, List.mem_of_find?_eq_some hr, by simpa using List.find?_some hr, (Option.some.inj h).symm⟩
  | none =>
    have legal : ∀ q ∈ p.regions, matOfField q.mat ≠ none := fun q hq => by simpa using List.find?_eq_none.mp hr q hq
    cases he : exposedRegion p with
    | some r =>
      rw [hr, he] at h
      exact .inr ⟨legal, r, List.mem_of_find?_eq_some he, (exposesDevice_iff r).mp (List.find?_some he),
        (Option.some.inj h).symm⟩
    | none => rw [hr, he] at h; cases h

/-- A step runs on exactly the platforms the model admits. -/
theorem platformRefusal_eq_none (p : Config.Platform) : platformRefusal p = none ↔ Configured p := by
  constructor
  · intro h r hm
    constructor
    · intro hr
      cases hf : reservedRegion p with
      | some q => simp [platformRefusal, hf] at h
      | none => exact List.find?_eq_none.mp hf r hm (by simp [hr])
    · intro he
      cases hf : exposedRegion p with
      | some q => cases hr : reservedRegion p <;> simp [platformRefusal, hf, hr] at h
      | none => exact List.find?_eq_none.mp hf r hm ((exposesDevice_iff r).mpr he)
  · intro h
    cases hx : platformRefusal p with
    | none => rfl
    | some x =>
      rcases platformRefusal_cases p x hx with ⟨r, hm, hn, -⟩ | ⟨-, r, hm, he, -⟩
      · exact absurd hn (h r hm).1
      · exact absurd he (h r hm).2

theorem touchesDevice_eq_false (p : Config.Platform) (a n : Nat) : touchesDevice p a n = false ↔ InStorage p a n := by
  simp [touchesDevice, InStorage]

theorem touchesStorage_of_inStorage (p : Config.Platform) (a n : Nat) (h : InStorage p a n) (hn : 0 < n) :
    touchesStorage p a n = true := by
  simp only [touchesStorage, List.any_eq_true, List.mem_range]
  exact ⟨0, hn, by simpa using h 0 hn⟩

/-! ## Frames -/

theorem SameMemory_refl (s : State) : SameMemory s s := ⟨fun _ => rfl, rfl, rfl⟩
theorem SameReservation_refl (s : State) : SameReservation s s := ⟨rfl, rfl⟩
theorem SameSystem_refl (s : State) : SameSystem s s := ⟨rfl, rfl, rfl, rfl, rfl⟩

theorem raise_takesTrap (e : Exception) (s : State) : TakesTrap s (raise e s) e :=
  ⟨rfl, fun _ => rfl, rfl, ⟨fun _ => rfl, rfl, rfl⟩, ⟨rfl, rfl⟩, ⟨rfl, rfl, rfl, rfl, rfl⟩, rfl⟩

theorem writeGr_advance_writesOnly (s : State) (rd : RegNum) (v : Word) :
    WritesOnly s (s.writeGr rd v).advance rd v := by
  refine ⟨fun r => ?_, ?_, ⟨fun a => ?_, ?_, ?_⟩, ⟨?_, ?_⟩, ⟨?_, ?_, ?_, ?_, ?_⟩, ?_, ?_⟩ <;> simp [State.readGr_writeGr]

/-! ## Shapes of effect -/

theorem writeAndAdvance_eq (rd : RegNum) (v : Word) (s : State) :
    writeAndAdvance rd v s = .next (s.writeGr rd v).advance := rfl

theorem writeAndAdvance_completes (rd : RegNum) (v : Word) (s : State) :
    ∃ t, writeAndAdvance rd v s = .next t ∧ WritesOnly s t rd v :=
  ⟨_, rfl, writeGr_advance_writesOnly s rd v⟩

theorem drawAndAdvance_completes (rd : RegNum) (s : State) :
    ∃ t, drawAndAdvance rd s = .next t ∧ WritesFreeValue s t rd := by
  refine ⟨_, rfl, fun r => ?_, ?_, ⟨fun a => ?_, ?_, ?_⟩, ⟨?_, ?_⟩, ⟨?_, ?_, ?_, ?_, ?_⟩, ?_, ?_⟩ <;>
    simp [State.readGr_writeGr]

theorem branchIf_completes (c : Bool) (o : BitVec 16) (s : State) :
    ∃ t, branchIf c o s = .next t ∧ GoesOnlyTo s t (if c then s.pc + offset16 o else s.pc + 4) := by
  refine ⟨_, rfl, ?_⟩
  cases c <;>
    exact ⟨fun _ => rfl, rfl, ⟨fun _ => rfl, rfl, rfl⟩, ⟨rfl, rfl⟩, ⟨rfl, rfl, rfl, rfl, rfl⟩, rfl, rfl⟩

theorem divideTo_zero (rd : RegNum) (d v : Word) (u : Bool) (s : State) (h : d = 0 ∨ u = true) :
    divideTo rd d v u s = drawAndAdvance rd s := by
  unfold divideTo
  rcases h with h | h <;> simp [h]

theorem divideTo_nonzero (rd : RegNum) (d v : Word) (s : State) (h : d ≠ 0) :
    divideTo rd d v false s = writeAndAdvance rd v s := by
  simp only [divideTo, Bool.or_false, decide_eq_true_eq]
  exact if_neg h

/-- Everything a load can do. -/
theorem loadTo_cases (rd : RegNum) (a : Word) (n : Nat) (f : (Nat → Byte) → Nat → Word) (s : State) :
    (¬Aligned a n ∧ loadTo rd a n f s = .next (raise (.ale a) s)) ∨
    (Aligned a n ∧ Accessible s.platform .read a.toNat n ∧
      loadTo rd a n f s = .next ((s.loaded a.toNat n).writeGr rd (f s.readByte a.toNat)).advance) ∨
    (Aligned a n ∧ ∃ r, (∃ k, k < n ∧ byteRefusal s.platform .read (a.toNat + k) = some r) ∧
      loadTo rd a n f s = .refused r) := by
  by_cases h : misaligned a n = true
  · exact .inl ⟨(misaligned_eq_true a n).mp h, by simp [loadTo, h]⟩
  · have h' : misaligned a n = false := by simpa using h
    have ha := (misaligned_eq_false a n).mp h'
    right
    cases hr : accessRefusal s.platform .read a.toNat n with
    | none => exact .inl ⟨ha, (accessRefusal_eq_none _ _ _ _).mp hr, by simp [loadTo, h', hr, writeAndAdvance]⟩
    | some r => exact .inr ⟨ha, r, accessRefusal_eq_some _ _ _ _ _ hr, by simp [loadTo, h', hr]⟩

/-- Everything a store can do. -/
theorem storeFrom_cases (a : Word) (n : Nat) (v : Word) (s : State) :
    (¬Aligned a n ∧ storeFrom a n v s = .next (raise (.ale a) s)) ∨
    (Aligned a n ∧ Accessible s.platform .write a.toNat n ∧
      storeFrom a n v s = .next (s.stored a.toNat (storeBytes n v)).advance) ∨
    (Aligned a n ∧ ∃ r, (∃ k, k < n ∧ byteRefusal s.platform .write (a.toNat + k) = some r) ∧
      storeFrom a n v s = .refused r) := by
  by_cases h : misaligned a n = true
  · exact .inl ⟨(misaligned_eq_true a n).mp h, by simp [storeFrom, h]⟩
  · have h' : misaligned a n = false := by simpa using h
    have ha := (misaligned_eq_false a n).mp h'
    right
    cases hr : accessRefusal s.platform .write a.toNat n with
    | none => exact .inl ⟨ha, (accessRefusal_eq_none _ _ _ _).mp hr, by simp [storeFrom, h', hr]⟩
    | some r => exact .inr ⟨ha, r, accessRefusal_eq_some _ _ _ _ _ hr, by simp [storeFrom, h', hr]⟩

/-- Everything the core's own store does to memory and devices. -/
theorem stored_memoryAfter (s : State) (a n : Nat) (v : Word) : MemoryAfter s (s.stored a (storeBytes n v)) a n v where
  stored k hk hd := by
    rw [State.stored_mem, Memory.read_writeStorage, hd, if_neg (by simp), Memory.read_writeBytes_in _ _ _ _ (by simpa using hk)]
    simp
  others b hb := by
    rw [State.stored_mem, Memory.read_writeStorage]
    by_cases hd : deviceAt s.platform b = true
    · rw [if_pos hd]
    · rw [if_neg hd, Memory.read_writeBytes_out]
      rw [storeBytes_length]
      rcases hb with hb | hb | hb
      · exact .inl hb
      · exact .inr hb
      · exact absurd hb hd
  unsynced := by simp
  devices := by simp [DeviceAccessMade]

/-- A store that a fetch may miss after a store is that one or was there before. -/
theorem mem_store_unsynced (s : State) (a : Nat) (bs : List Byte) (u : UnsyncedStore)
    (h : u ∈ (s.store a bs).unsynced) : u = ⟨a, Memory.readBytes s.mem a bs.length⟩ ∨ u ∈ s.unsynced := by
  rw [State.store_unsynced] at h
  split at h
  · exact List.mem_cons.mp h
  · exact .inr h

/-- The same after the core's own store. -/
theorem mem_stored_unsynced (s : State) (a : Nat) (bs : List Byte) (u : UnsyncedStore)
    (h : u ∈ (s.stored a bs).unsynced) : u = ⟨a, Memory.readBytes s.mem a bs.length⟩ ∨ u ∈ s.unsynced :=
  mem_store_unsynced s a bs u h

theorem stored_advance_storesOnly (s : State) (a n : Nat) (v : Word) :
    StoresOnly s (s.stored a (storeBytes n v)).advance a n v :=
  have m := stored_memoryAfter s a n v
  ⟨⟨m.stored, m.others, m.unsynced, m.devices⟩, fun _ => rfl, rfl, ⟨rfl, rfl⟩, ⟨rfl, rfl, rfl, rfl, rfl⟩, rfl, rfl⟩

/-- Everything a load that completes does. -/
theorem loaded_writeGr_advance_loadsOnly (s : State) (rd : RegNum) (a n : Nat) (v : Word) :
    LoadsOnly s ((s.loaded a n).writeGr rd v).advance rd a n v := by
  refine ⟨fun r => ?_, ?_, ?_, ?_, fun _ => ?_, ?_, ⟨?_, ?_⟩, ⟨?_, ?_, ?_, ?_, ?_⟩, ?_⟩ <;>
    simp [State.readGr_writeGr, DeviceAccessMade]

/-- What a load finds in storage is memory's byte, and in a device a free one. -/
theorem State.readByte_eq (s : State) (a : Nat) : s.readByte a =
    if deviceAt s.platform a = true then Config.deviceByte s.draws a else Memory.read s.mem a := rfl

theorem State.readByte_storage (s : State) (a : Nat) (h : deviceAt s.platform a = false) :
    s.readByte a = Memory.read s.mem a := by simp [State.readByte, h]

/-! ## LL.W and SC.W -/

/-- Why an LL.W, or an SC.W with LLbit 1 at LLaddr, is refused: a byte that cannot be read or written, or storage that
is not coherent cached. -/
def RefusesAtomic (p : Config.Platform) (kind : AccessKind) (a : Word) (r : Refusal) : Prop :=
  (∃ k, k < 4 ∧ byteRefusal p kind (a.toNat + k) = some r) ∨
  (r = .llscUncached a ∧ Accessible p kind a.toNat 4 ∧ ¬Cached p a.toNat 4)

/-- Everything LL.W can do. -/
theorem execLlw_cases (rd rj : RegNum) (i : BitVec 14) (s : State) :
    let a := atomicAddress s rj i
    (¬Aligned a 4 ∧ execLlw rd rj i s = .next (raise (.ale a) s)) ∨
    (Aligned a 4 ∧ Accessible s.platform .read a.toNat 4 ∧ Cached s.platform a.toNat 4 ∧
      execLlw rd rj i s =
        .next (((s.loaded a.toNat 4).setReservation true a).writeGr rd (memRead32 s.readByte a.toNat)).advance) ∨
    (Aligned a 4 ∧ ∃ r, execLlw rd rj i s = .refused r ∧ RefusesAtomic s.platform .read a r) := by
  intro a
  by_cases h : misaligned a 4 = true
  · exact .inl ⟨(misaligned_eq_true a 4).mp h, by simp [execLlw, a, show misaligned (atomicAddress s rj i) 4 = true from h]⟩
  · have h' : misaligned a 4 = false := by simpa using h
    have ha := (misaligned_eq_false a 4).mp h'
    right
    have unfolded : execLlw rd rj i s =
        match accessRefusal s.platform .read a.toNat 4 with
        | some r => .refused r
        | none =>
          if accessCached s.platform a.toNat 4 then
            writeAndAdvance rd (memRead32 s.readByte a.toNat) ((s.loaded a.toNat 4).setReservation true a)
          else .refused (.llscUncached a) := by
      simp only [execLlw]
      exact (if_neg (by simpa using h')).trans rfl
    cases hr : accessRefusal s.platform .read a.toNat 4 with
    | some r => exact .inr ⟨ha, r, by rw [unfolded, hr], .inl (accessRefusal_eq_some _ _ _ _ _ hr)⟩
    | none =>
      by_cases hc : accessCached s.platform a.toNat 4 = true
      · exact .inl ⟨ha, (accessRefusal_eq_none _ _ _ _).mp hr, (accessCached_iff _ _ _).mp hc, by
          rw [unfolded, hr]; simp [hc, writeAndAdvance]⟩
      · exact .inr ⟨ha, .llscUncached a, by rw [unfolded, hr]; simp [hc],
          .inr ⟨rfl, (accessRefusal_eq_none _ _ _ _).mp hr, fun h => hc ((accessCached_iff _ _ _).mpr h)⟩⟩

/-- Everything SC.W can do. -/
theorem execScw_cases (rd rj : RegNum) (i : BitVec 14) (s : State) :
    let a := atomicAddress s rj i
    (¬Aligned a 4 ∧ execScw rd rj i s = .next (raise (.ale a) s)) ∨
    (Aligned a 4 ∧ s.llbit = true ∧ a = s.lladdr ∧ Accessible s.platform .write a.toNat 4 ∧ Cached s.platform a.toNat 4 ∧
      execScw rd rj i s = finishScw rd true (s.stored a.toNat (storeBytes 4 (s.readGr rd)))) ∨
    (Aligned a 4 ∧ s.llbit = false ∧ execScw rd rj i s = finishScw rd false s) ∨
    (Aligned a 4 ∧ s.llbit = true ∧ a ≠ s.lladdr ∧ execScw rd rj i s = .refused (.scAddress a s.lladdr)) ∨
    (Aligned a 4 ∧ s.llbit = true ∧ a = s.lladdr ∧ ∃ r, execScw rd rj i s = .refused r ∧
      RefusesAtomic s.platform .write a r) := by
  intro a
  by_cases h : misaligned a 4 = true
  · exact .inl ⟨(misaligned_eq_true a 4).mp h, by simp [execScw, a, show misaligned (atomicAddress s rj i) 4 = true from h]⟩
  · have h' : misaligned a 4 = false := by simpa using h
    have ha := (misaligned_eq_false a 4).mp h'
    right
    have unfolded : execScw rd rj i s =
        if s.llbit then
          if a = s.lladdr then
            match accessRefusal s.platform .write a.toNat 4 with
            | some r => .refused r
            | none =>
              if accessCached s.platform a.toNat 4 then
                finishScw rd true (s.stored a.toNat (storeBytes 4 (s.readGr rd)))
              else .refused (.llscUncached a)
          else .refused (.scAddress a s.lladdr)
        else finishScw rd false s := by
      simp only [execScw]
      exact (if_neg (by simpa using h')).trans rfl
    cases hb : s.llbit with
    | false => exact .inr (.inl ⟨ha, rfl, by rw [unfolded, hb]; simp⟩)
    | true =>
      by_cases hl : a = s.lladdr
      · cases hr : accessRefusal s.platform .write a.toNat 4 with
        | some r => exact .inr (.inr (.inr ⟨ha, rfl, hl, r, by rw [unfolded, hb, if_pos rfl, if_pos hl, hr],
            .inl (accessRefusal_eq_some _ _ _ _ _ hr)⟩))
        | none =>
          by_cases hc : accessCached s.platform a.toNat 4 = true
          · exact .inl ⟨ha, rfl, hl, (accessRefusal_eq_none _ _ _ _).mp hr, (accessCached_iff _ _ _).mp hc, by
              rw [unfolded, hb, if_pos rfl, if_pos hl, hr]; simp [hc]⟩
          · exact .inr (.inr (.inr ⟨ha, rfl, hl, .llscUncached a, by
              rw [unfolded, hb, if_pos rfl, if_pos hl, hr]; simp [hc],
              .inr ⟨rfl, (accessRefusal_eq_none _ _ _ _).mp hr, fun h => hc ((accessCached_iff _ _ _).mpr h)⟩⟩))
      · exact .inr (.inr (.inl ⟨ha, rfl, hl, by rw [unfolded, hb, if_pos rfl, if_neg hl]⟩))

theorem finishScw_eq (rd : RegNum) (b : Bool) (s : State) :
    finishScw rd b s =
      .next (((s.drawn).setReservation (Config.anyBit s.draws) s.lladdr).writeGr rd (if b then 1 else 0)).advance := rfl

/-! ## The environment -/

theorem ForeignStore.isAccess_iff (c : ForeignStore) : c.isAccess = true ↔
    (c.bytes.length = 1 ∨ c.bytes.length = 2 ∨ c.bytes.length = 4) ∧ c.addr % c.bytes.length = 0 := by
  simp [ForeignStore.isAccess, or_assoc]

theorem ForeignStore.arrives_iff (p : Config.Platform) (c : ForeignStore) :
    c.arrives p = true ↔ c.isAccess = true ∧ Accessible p .write c.addr c.bytes.length := by
  simp [ForeignStore.arrives, accessRefusal_eq_none]

theorem ForeignStore.covers_eq_false (c : ForeignStore) (a : Nat) :
    c.covers a = false ↔ a < c.addr ∨ c.addr + c.bytes.length ≤ a := by
  simp [ForeignStore.covers]; omega

/-- Everything a store of another agent can do: it is made whole, or nothing happens. -/
theorem foreignWrite_cases (s : State) (c : ForeignStore) :
    (c.arrives s.platform = true ∧
      foreignWrite s c = { s.store c.addr c.bytes with llbit := s.llbit && !inReservation s.lladdr c.addr }) ∨
    (c.arrives s.platform = false ∧ foreignWrite s c = s) := by
  cases h : c.arrives s.platform <;> simp [foreignWrite, h]

theorem foreignWrite_frame (s : State) (c : ForeignStore) :
    let t := foreignWrite s c
    t.gr = s.gr ∧ t.pc = s.pc ∧ t.plv = s.plv ∧ t.lladdr = s.lladdr ∧ t.stableCounter = s.stableCounter ∧
    t.counterId = s.counterId ∧ t.incoming = s.incoming ∧ t.trap = s.trap ∧ t.platform = s.platform ∧
    t.draws = s.draws ∧ t.deviceAccesses = s.deviceAccesses := by
  simp only [foreignWrite]
  split <;> simp

theorem foreignWrites_frame (stores : List ForeignStore) (s : State) :
    let t := foreignWrites s stores
    t.gr = s.gr ∧ t.pc = s.pc ∧ t.plv = s.plv ∧ t.lladdr = s.lladdr ∧ t.stableCounter = s.stableCounter ∧
    t.counterId = s.counterId ∧ t.incoming = s.incoming ∧ t.trap = s.trap ∧ t.platform = s.platform ∧
    t.draws = s.draws ∧ t.deviceAccesses = s.deviceAccesses := by
  induction stores generalizing s with
  | nil => simp [foreignWrites]
  | cons c stores ih =>
    have h := ih (foreignWrite s c)
    have f := foreignWrite_frame s c
    simp only [foreignWrites, List.foldl_cons] at h ⊢
    simp_all

@[simp] theorem environment_gr (s : State) : (environment s).gr = s.gr := (foreignWrites_frame _ s).1
@[simp] theorem environment_pc (s : State) : (environment s).pc = s.pc := (foreignWrites_frame _ s).2.1
@[simp] theorem environment_plv (s : State) : (environment s).plv = s.plv := (foreignWrites_frame _ s).2.2.1
@[simp] theorem environment_lladdr (s : State) : (environment s).lladdr = s.lladdr :=
  (foreignWrites_frame _ s).2.2.2.1
@[simp] theorem environment_stableCounter (s : State) :
    (environment s).stableCounter = s.stableCounter + Config.counterTicks s.draws := rfl
@[simp] theorem environment_counterId (s : State) : (environment s).counterId = s.counterId :=
  (foreignWrites_frame _ s).2.2.2.2.2.1
@[simp] theorem environment_incoming (s : State) : (environment s).incoming = s.incoming.tail := rfl
@[simp] theorem environment_trap (s : State) : (environment s).trap = s.trap :=
  (foreignWrites_frame _ s).2.2.2.2.2.2.2.1
@[simp] theorem environment_platform (s : State) : (environment s).platform = s.platform :=
  (foreignWrites_frame _ s).2.2.2.2.2.2.2.2.1
@[simp] theorem environment_deviceAccesses (s : State) : (environment s).deviceAccesses = s.deviceAccesses :=
  (foreignWrites_frame _ s).2.2.2.2.2.2.2.2.2.2
@[simp] theorem environment_draws (s : State) : (environment s).draws = s.draws + 1 := rfl
@[simp] theorem environment_mem (s : State) :
    (environment s).mem = (foreignWrites s (s.incoming.headD [])).mem := rfl
@[simp] theorem environment_unsynced (s : State) :
    (environment s).unsynced = (foreignWrites s (s.incoming.headD [])).unsynced := rfl
@[simp] theorem readGr_environment (s : State) (r : RegNum) : (environment s).readGr r = s.readGr r :=
  State.readGr_congr _ _ (environment_gr s) r

/-- A store of another agent that arrives stands in storage, byte by byte. -/
theorem foreignWrite_read_in (s : State) (c : ForeignStore) (k : Nat) (h : c.arrives s.platform = true)
    (hk : k < c.bytes.length) (hd : deviceAt s.platform (c.addr + k) = false) :
    Memory.read (foreignWrite s c).mem (c.addr + k) = c.bytes[k] := by
  rcases foreignWrite_cases s c with ⟨-, e⟩ | ⟨n, -⟩
  · simp [e, Memory.read_writeStorage, hd, Memory.read_writeBytes_in, hk]
  · rw [n] at h; cases h

/-- It leaves every byte it does not cover and every device's, and one that does not arrive leaves every byte. -/
theorem foreignWrite_read_out (s : State) (c : ForeignStore) (a : Nat)
    (h : c.arrives s.platform = true → deviceAt s.platform a = false → c.covers a = false) :
    Memory.read (foreignWrite s c).mem a = Memory.read s.mem a := by
  rcases foreignWrite_cases s c with ⟨y, e⟩ | ⟨-, e⟩
  · rw [e]
    show Memory.read (Memory.writeStorage s.platform s.mem c.addr c.bytes) a = _
    rw [Memory.read_writeStorage]
    cases hd : deviceAt s.platform a with
    | true => rfl
    | false => exact Memory.read_writeBytes_out _ _ _ _ ((c.covers_eq_false a).mp (h y hd))
  · rw [e]

/-! ## The fetch -/

@[simp] theorem fetchByteFrom_nil (d a : Nat) (v : Byte) : fetchByteFrom d a v [] = v := rfl

/-- Where no unsynchronised store wrote, a fetch sees what memory holds. -/
theorem fetchByteFrom_untouched (d a : Nat) (v : Byte) (us : List UnsyncedStore)
    (h : ∀ u ∈ us, u.oldByte a = none) : fetchByteFrom d a v us = v := by
  induction us with
  | nil => rfl
  | cons u us ih =>
    simp only [fetchByteFrom, h u (by simp)]
    exact ih (fun u hu => h u (by simp [hu]))

/-- A fetch of storage that no unsynchronised store wrote sees what memory holds. -/
theorem fetchByte_synced (s : State) (a : Nat) (hd : deviceAt s.platform a = false) (h : FetchSynced s a) :
    fetchByte s a = Memory.read s.mem a := by
  simp only [fetchByte, hd]
  exact fetchByteFrom_untouched _ _ _ _ h

/-! ## The step -/

/-- Everything a step that answers a next state did. -/
theorem step_next_cases (s t : State) (h : step s = .next t) :
    s.trap = none ∧ Configured s.platform ∧
    ((¬Aligned s.pc 4 ∧ t = raise (.adef s.pc) (environment s)) ∨
     ∃ w, Aligned s.pc 4 ∧ fetchWord (environment s) = .ok w ∧
      ((∃ i, decodeWord w = .ok i ∧ exec i (environment s) = .next t) ∨
       (decodeWord w = .error (.unlisted w) ∧ w ∈ s.platform.ineWords ∧ t = raise (.ine w) (environment s)))) := by
  unfold step at h
  split at h
  · cases h
  · next htrap =>
    unfold runStep at h
    split at h
    · cases h
    next hc =>
    refine ⟨htrap, (platformRefusal_eq_none _).mp hc, ?_⟩
    unfold fetchAndExec at h
    split at h
    · next hp =>
      left
      simp only [pcMisaligned, misaligned_eq_true, environment_pc] at hp
      simp only [Host.Outcome.next.injEq, environment_pc] at h
      exact ⟨hp, h.symm⟩
    · next hp =>
      have hp : Aligned s.pc 4 := by
        rw [← misaligned_eq_false, ← environment_pc]; simpa [pcMisaligned] using hp
      right
      split at h
      · cases h
      · next w hw =>
        refine ⟨w, hp, hw, ?_⟩
        unfold decodeAndExec at h
        split at h
        · next i hi => exact .inl ⟨i, hi, h⟩
        · next e he =>
          have he' : decodeWord w = .error (.unlisted w) := by
            unfold decodeWord at he ⊢
            split at he
            · cases he
            · rfl
          split at h
          · next hm =>
            simp only [environment_platform] at hm
            exact .inr ⟨he', hm, (Host.Outcome.next.inj h).symm⟩
          · cases h

end Sys2Proof.Machine
end

