-- ==== Sys2Proof/Laws/Exec.lean ====
section
/-! SUPPORT. Everything an instruction that answers a next state can do, said once: its effect has one of eleven shapes. -/

namespace Sys2Proof.Machine

open Sys2Proof.Safety

/-- The shapes of a next state, each with what the instruction is known to be. -/
inductive Effect (i : Instr) (s : State) : State → Prop
  /-- SYSCALL or BREAK. -/
  | call (e : Exception) (dest : destination i = none) (access : dataAccess s i = none) (store : isStore i = false)
      (source : (∃ c, i = .syscall c ∧ e = .sys c) ∨ ∃ c, i = .brk c ∧ e = .brk c) : Effect i s (raise e s)
  /-- A misaligned data access. -/
  | misaligned (a : Word) (n : Nat) (access : dataAccess s i = some (a, n)) (bad : ¬Aligned a n) :
      Effect i s (raise (.ale a) s)
  /-- One register written: arithmetic, shifts, counter reads. -/
  | write (rd : RegNum) (v : Word) (dest : destination i = some rd) (access : dataAccess s i = none)
      (store : isStore i = false) (target : transferTarget s i = none) : Effect i s (s.writeGr rd v).advance
  /-- A free value written: divisions. -/
  | draw (rd : RegNum) (dest : destination i = some rd) (access : dataAccess s i = none) (store : isStore i = false)
      (target : transferTarget s i = none) : Effect i s (s.drawn.writeGr rd (Config.anyWord s.draws)).advance
  /-- A conditional branch or B. -/
  | jump (dest : destination i = none) (access : dataAccess s i = none) (store : isStore i = false) :
      Effect i s (s.setPc ((transferTarget s i).getD (s.pc + 4)))
  /-- BL or JIRL. -/
  | link (rd : RegNum) (p : Word) (dest : destination i = some rd) (access : dataAccess s i = none)
      (store : isStore i = false) (target : transferTarget s i = some p) :
      Effect i s ((s.writeGr rd (s.pc + 4)).setPc p)
  /-- PRELD or DBAR. -/
  | advance (dest : destination i = none) (access : dataAccess s i = none) (store : isStore i = false)
      (target : transferTarget s i = none) : Effect i s s.advance
  /-- IBAR. -/
  | sync (hint : BitVec 15) (eq : i = .ibar hint) : Effect i s ({ s with unsynced := [] } : State).advance
  /-- A load. -/
  | load (rd : RegNum) (v : Word) (a : Word) (n : Nat) (dest : destination i = some rd)
      (access : dataAccess s i = some (a, n)) (store : isStore i = false) (target : transferTarget s i = none)
      (good : Aligned a n) (mapped : Accessible s.platform .read a.toNat n) :
      Effect i s ((s.loaded a.toNat n).writeGr rd v).advance
  /-- An ordinary store. -/
  | store (a : Word) (n : Nat) (v : Word) (pos : 0 < n) (dest : destination i = none)
      (access : dataAccess s i = some (a, n)) (store : isStore i = true) (target : transferTarget s i = none)
      (good : Aligned a n) (mapped : Accessible s.platform .write a.toNat n) :
      Effect i s (s.stored a.toNat (storeBytes n v)).advance
  /-- LL.W. -/
  | linked (rd rj : RegNum) (x : BitVec 14) (eq : i = .llw rd rj x) (good : Aligned (atomicAddress s rj x) 4)
      (mapped : Accessible s.platform .read (atomicAddress s rj x).toNat 4) :
      Effect i s (((s.loaded (atomicAddress s rj x).toNat 4).setReservation true (atomicAddress s rj x)).writeGr rd
        (memRead32 s.readByte (atomicAddress s rj x).toNat)).advance
  /-- SC.W that stores. -/
  | stored (rd rj : RegNum) (x : BitVec 14) (eq : i = .scw rd rj x) (good : Aligned (atomicAddress s rj x) 4)
      (mapped : Accessible s.platform .write (atomicAddress s rj x).toNat 4) (seen : s.llbit = true)
      (same : atomicAddress s rj x = s.lladdr) :
      Effect i s ((((s.stored (atomicAddress s rj x).toNat (storeBytes 4 (s.readGr rd))).drawn.setReservation
        (Config.anyBit s.draws) s.lladdr).writeGr rd 1).advance)
  /-- SC.W that does not store. -/
  | notStored (rd rj : RegNum) (x : BitVec 14) (eq : i = .scw rd rj x) (good : Aligned (atomicAddress s rj x) 4)
      (seen : s.llbit = false) :
      Effect i s (((s.drawn.setReservation (Config.anyBit s.draws) s.lladdr).writeGr rd 0).advance)

theorem effect_writeAndAdvance (i : Instr) (s t : State) (rd : RegNum) (v : Word)
    (dest : destination i = some rd) (access : dataAccess s i = none) (store : isStore i = false)
    (target : transferTarget s i = none) (h : writeAndAdvance rd v s = .next t) : Effect i s t := by
  cases h; exact .write rd v dest access store target

theorem effect_divideTo (i : Instr) (s t : State) (rd : RegNum) (d v : Word) (u : Bool)
    (dest : destination i = some rd) (access : dataAccess s i = none) (store : isStore i = false)
    (target : transferTarget s i = none) (h : divideTo rd d v u s = .next t) : Effect i s t := by
  unfold divideTo at h
  split at h
  · cases h; exact .draw rd dest access store target
  · cases h; exact .write rd v dest access store target

theorem effect_branchIf (i : Instr) (s t : State) (c : Bool) (o : BitVec 16)
    (dest : destination i = none) (access : dataAccess s i = none) (store : isStore i = false)
    (target : transferTarget s i = if c = true then some (s.pc + offset16 o) else none)
    (h : branchIf c o s = .next t) : Effect i s t := by
  have e := Effect.jump (i := i) (s := s) dest access store
  rw [target] at e
  cases c <;> (cases h; exact e)

theorem effect_loadTo (i : Instr) (s t : State) (rd : RegNum) (a : Word) (n : Nat) (f : (Nat → Byte) → Nat → Word)
    (dest : destination i = some rd) (access : dataAccess s i = some (a, n)) (store : isStore i = false)
    (target : transferTarget s i = none) (h : loadTo rd a n f s = .next t) : Effect i s t := by
  rcases loadTo_cases rd a n f s with ⟨bad, e⟩ | ⟨good, mapped, e⟩ | ⟨-, r, -, e⟩ <;> rw [e] at h <;> cases h
  · exact .misaligned a n access bad
  · exact .load rd _ a n dest access store target good mapped

theorem effect_storeFrom (i : Instr) (s t : State) (a : Word) (n : Nat) (v : Word) (pos : 0 < n)
    (dest : destination i = none) (access : dataAccess s i = some (a, n)) (store : isStore i = true)
    (target : transferTarget s i = none) (h : storeFrom a n v s = .next t) : Effect i s t := by
  rcases storeFrom_cases a n v s with ⟨bad, e⟩ | ⟨good, mapped, e⟩ | ⟨-, r, -, e⟩ <;> rw [e] at h <;> cases h
  · exact .misaligned a n access bad
  · exact .store a n v pos dest access store target good mapped

theorem effect_llw (s t : State) (rd rj : RegNum) (x : BitVec 14) (h : execLlw rd rj x s = .next t) :
    Effect (.llw rd rj x) s t := by
  rcases execLlw_cases rd rj x s with ⟨bad, e⟩ | ⟨good, mapped, -, e⟩ | ⟨-, r, e, -⟩ <;> rw [e] at h <;> cases h
  · exact .misaligned _ 4 rfl bad
  · exact .linked rd rj x rfl good mapped

theorem effect_scw (s t : State) (rd rj : RegNum) (x : BitVec 14) (h : execScw rd rj x s = .next t) :
    Effect (.scw rd rj x) s t := by
  rcases execScw_cases rd rj x s with ⟨bad, e⟩ | ⟨good, seen, same, mapped, -, e⟩ | ⟨good, seen, e⟩ | ⟨-, -, -, e⟩ |
    ⟨-, -, -, r, e, -⟩ <;> rw [e] at h <;> cases h
  · exact .misaligned _ 4 rfl bad
  · exact .stored rd rj x rfl good mapped seen same
  · exact .notStored rd rj x rfl good seen

/-- Everything an instruction that answers a next state can do. -/
theorem exec_effect (i : Instr) (s t : State) (h : exec i s = .next t) : Effect i s t := by
  cases i with
  | beq rj rd o => exact effect_branchIf _ _ _ _ o rfl rfl rfl (by simp [transferTarget]) h
  | bne rj rd o => exact effect_branchIf _ _ _ _ o rfl rfl rfl (by simp [transferTarget]) h
  | blt rj rd o => exact effect_branchIf _ _ _ _ o rfl rfl rfl (by simp [transferTarget, lessSigned]) h
  | bge rj rd o => exact effect_branchIf _ _ _ _ o rfl rfl rfl (by simp [transferTarget, lessSigned]) h
  | bltu rj rd o => exact effect_branchIf _ _ _ _ o rfl rfl rfl (by simp [transferTarget, lessUnsigned]) h
  | bgeu rj rd o => exact effect_branchIf _ _ _ _ o rfl rfl rfl (by simp [transferTarget, lessUnsigned]) h
  | b o => cases h; exact .jump (i := .b o) rfl rfl rfl
  | bl o => cases h; exact .link _ _ rfl rfl rfl rfl
  | jirl rd rj o => cases h; exact .link _ _ rfl rfl rfl rfl
  | divw rd rj rk => exact effect_divideTo _ _ _ rd _ _ _ rfl rfl rfl rfl h
  | modw rd rj rk => exact effect_divideTo _ _ _ rd _ _ _ rfl rfl rfl rfl h
  | divwu rd rj rk => exact effect_divideTo _ _ _ rd _ _ _ rfl rfl rfl rfl h
  | modwu rd rj rk => exact effect_divideTo _ _ _ rd _ _ _ rfl rfl rfl rfl h
  | ldb rd rj x => simp only [exec, execLdb] at h; exact effect_loadTo _ _ _ rd _ _ _ rfl rfl rfl rfl h
  | ldh rd rj x => simp only [exec, execLdh] at h; exact effect_loadTo _ _ _ rd _ _ _ rfl rfl rfl rfl h
  | ldw rd rj x => simp only [exec, execLdw] at h; exact effect_loadTo _ _ _ rd _ _ _ rfl rfl rfl rfl h
  | ldbu rd rj x => simp only [exec, execLdbu] at h; exact effect_loadTo _ _ _ rd _ _ _ rfl rfl rfl rfl h
  | ldhu rd rj x => simp only [exec, execLdhu] at h; exact effect_loadTo _ _ _ rd _ _ _ rfl rfl rfl rfl h
  | stb rd rj x => exact effect_storeFrom _ _ _ _ 1 _ (by omega) rfl rfl rfl rfl h
  | sth rd rj x => exact effect_storeFrom _ _ _ _ 2 _ (by omega) rfl rfl rfl rfl h
  | stw rd rj x => exact effect_storeFrom _ _ _ _ 4 _ (by omega) rfl rfl rfl rfl h
  | llw rd rj x => exact effect_llw _ _ _ _ _ h
  | scw rd rj x => exact effect_scw _ _ _ _ _ h
  | preld hint rj x => cases h; exact .advance rfl rfl rfl rfl
  | dbar hint => cases h; exact .advance rfl rfl rfl rfl
  | ibar hint => cases h; exact .sync hint rfl
  | syscall code => cases h; exact .call _ rfl rfl rfl (.inl ⟨code, rfl, rfl⟩)
  | brk code => cases h; exact .call _ rfl rfl rfl (.inr ⟨code, rfl, rfl⟩)
  | rdcntvlw rd => exact effect_writeAndAdvance _ _ _ rd _ rfl rfl rfl rfl h
  | rdcntvhw rd => exact effect_writeAndAdvance _ _ _ rd _ rfl rfl rfl rfl h
  | rdcntid rj => exact effect_writeAndAdvance _ _ _ rj _ rfl rfl rfl rfl h
  | lu12iw rd x => exact effect_writeAndAdvance _ _ _ rd _ rfl rfl rfl rfl h
  | pcaddu12i rd x => exact effect_writeAndAdvance _ _ _ rd _ rfl rfl rfl rfl h
  | addw rd _ _ | subw rd _ _ | addiw rd _ _ | slt rd _ _ | sltu rd _ _ | slti rd _ _ | sltui rd _ _
  | and rd _ _ | or rd _ _ | nor rd _ _ | xor rd _ _ | andi rd _ _ | ori rd _ _ | xori rd _ _ | mulw rd _ _
  | mulhw rd _ _ | mulhwu rd _ _ | sllw rd _ _ | srlw rd _ _ | sraw rd _ _ | slliw rd _ _ | srliw rd _ _
  | sraiw rd _ _ => exact effect_writeAndAdvance _ _ _ rd _ rfl rfl rfl rfl h

/-- An instruction never faults. -/
theorem exec_ne_fault (i : Instr) (s : State) (f : Fault) : exec i s ≠ .fault f := by
  have hl : ∀ rd a n g, loadTo rd a n g s ≠ .fault f := fun rd a n g h => by
    rcases loadTo_cases rd a n g s with ⟨-, e⟩ | ⟨-, -, e⟩ | ⟨-, r, -, e⟩ <;> rw [e] at h <;> cases h
  have hs : ∀ a n v, storeFrom a n v s ≠ .fault f := fun a n v h => by
    rcases storeFrom_cases a n v s with ⟨-, e⟩ | ⟨-, -, e⟩ | ⟨-, r, -, e⟩ <;> rw [e] at h <;> cases h
  have hd : ∀ rd d v u, divideTo rd d v u s ≠ .fault f := fun rd d v u h => by
    unfold divideTo at h; split at h <;> cases h
  intro h
  cases i with
  | llw rd rj x =>
    have h : execLlw rd rj x s = .fault f := h
    rcases execLlw_cases rd rj x s with ⟨-, e⟩ | ⟨-, -, -, e⟩ | ⟨-, r, e, -⟩ <;> rw [e] at h <;> cases h
  | scw rd rj x =>
    have h : execScw rd rj x s = .fault f := h
    rcases execScw_cases rd rj x s with ⟨-, e⟩ | ⟨-, -, -, -, -, e⟩ | ⟨-, -, e⟩ | ⟨-, -, -, e⟩ | ⟨-, -, -, r, e, -⟩ <;>
      rw [e] at h <;> cases h
  | ldb | ldh | ldw | ldbu | ldhu =>
    simp only [exec, execLdb, execLdh, execLdw, execLdbu, execLdhu] at h; exact hl _ _ _ _ h
  | stb | sth | stw => exact hs _ _ _ h
  | divw | modw | divwu | modwu => exact hd _ _ _ _ h
  | _ => cases h

end Sys2Proof.Machine
end

