-- ==== Sys2Proof/Tests/Slice0.lean ====
section
/-! SUPPORT. The model's own tests. Expected results are the spec's: the examples and corner cases of the instruction rules
(files 40 to 46) and the encodings of 30_encoding.md R78. Then, for every obligation with hypotheses, a state and operands
that meet them. -/

namespace Sys2Proof.Tests

open Sys2Proof.Machine Sys2Proof.Safety

/-! ## Well-formed instructions -/

theorem test_wf_refuses_rdcntid_r0 : Instr.wf (.rdcntid 0) = false := by decide
theorem test_wf_accepts_rdcntid_r31 : Instr.wf (.rdcntid 31) = true := by decide
theorem test_wf_accepts_the_others :
    [Instr.addw 31 31 31, .preld 31 0 0xFFF, .jirl 0 1 0, .scw 0 0 0, .rdcntvlw 0, .dbar 0x7FFF].all Instr.wf = true := by
  decide

/-! ## Decoding and encoding: one word of every row, from the examples of the rules -/

/-- The word decodes to the instruction, and the instruction encodes to the word. -/
def Codes (w : Word) (i : Instr) : Prop := decodeWord w = .ok i ∧ encode i = w

theorem test_code_addw : Codes 0x001018A4 (.addw 4 5 6) := by unfold Codes; decide
theorem test_code_subw : Codes 0x001118A4 (.subw 4 5 6) := by unfold Codes; decide
theorem test_code_addiw : Codes 0x02BFFCA4 (.addiw 4 5 0xFFF) := by unfold Codes; decide
theorem test_code_lu12iw : Codes 0x142468A8 (.lu12iw 8 0x12345) := by unfold Codes; decide
theorem test_code_slt : Codes 0x001218A4 (.slt 4 5 6) := by unfold Codes; decide
theorem test_code_sltu : Codes 0x001298A4 (.sltu 4 5 6) := by unfold Codes; decide
theorem test_code_slti : Codes 0x023FFCA4 (.slti 4 5 0xFFF) := by unfold Codes; decide
theorem test_code_sltui : Codes 0x026000A4 (.sltui 4 5 0x800) := by unfold Codes; decide
theorem test_code_pcaddu12i : Codes 0x1DFFFFE4 (.pcaddu12i 4 0xFFFFF) := by unfold Codes; decide
theorem test_code_and : Codes 0x001498A4 (.and 4 5 6) := by unfold Codes; decide
theorem test_code_or : Codes 0x001518A4 (.or 4 5 6) := by unfold Codes; decide
theorem test_code_nor : Codes 0x001400A4 (.nor 4 5 0) := by unfold Codes; decide
theorem test_code_xor : Codes 0x001598A4 (.xor 4 5 6) := by unfold Codes; decide
theorem test_code_andi : Codes 0x037FFCA4 (.andi 4 5 0xFFF) := by unfold Codes; decide
theorem test_code_ori : Codes 0x0399E108 (.ori 8 8 0x678) := by unfold Codes; decide
theorem test_code_xori : Codes 0x03FFFCA4 (.xori 4 5 0xFFF) := by unfold Codes; decide
theorem test_code_mulw : Codes 0x001C18A4 (.mulw 4 5 6) := by unfold Codes; decide
theorem test_code_mulhw : Codes 0x001C98A4 (.mulhw 4 5 6) := by unfold Codes; decide
theorem test_code_mulhwu : Codes 0x001D18A4 (.mulhwu 4 5 6) := by unfold Codes; decide
theorem test_code_divw : Codes 0x002018A4 (.divw 4 5 6) := by unfold Codes; decide
theorem test_code_modw : Codes 0x002098A4 (.modw 4 5 6) := by unfold Codes; decide
theorem test_code_divwu : Codes 0x002118A4 (.divwu 4 5 6) := by unfold Codes; decide
theorem test_code_modwu : Codes 0x002198A4 (.modwu 4 5 6) := by unfold Codes; decide
theorem test_code_sllw : Codes 0x001718A4 (.sllw 4 5 6) := by unfold Codes; decide
theorem test_code_srlw : Codes 0x001798A4 (.srlw 4 5 6) := by unfold Codes; decide
theorem test_code_sraw : Codes 0x001818A4 (.sraw 4 5 6) := by unfold Codes; decide
theorem test_code_slliw : Codes 0x0040FCA4 (.slliw 4 5 31) := by unfold Codes; decide
theorem test_code_srliw : Codes 0x004490A4 (.srliw 4 5 4) := by unfold Codes; decide
theorem test_code_sraiw : Codes 0x004884A4 (.sraiw 4 5 1) := by unfold Codes; decide
theorem test_code_beq : Codes 0x580010A4 (.beq 5 4 4) := by unfold Codes; decide
theorem test_code_bne : Codes 0x5FFFF880 (.bne 4 0 0xFFFE) := by unfold Codes; decide
theorem test_code_blt : Codes 0x600010A4 (.blt 5 4 4) := by unfold Codes; decide
theorem test_code_bge : Codes 0x640010A4 (.bge 5 4 4) := by unfold Codes; decide
theorem test_code_bltu : Codes 0x680010A4 (.bltu 5 4 4) := by unfold Codes; decide
theorem test_code_bgeu : Codes 0x6C0010A4 (.bgeu 5 4 4) := by unfold Codes; decide
theorem test_code_b : Codes 0x50000200 (.b 0x2000000) := by unfold Codes; decide
theorem test_code_bl : Codes 0x57FFF3FF (.bl 0x3FFFFFC) := by unfold Codes; decide
theorem test_code_jirl : Codes 0x4C0010A1 (.jirl 1 5 4) := by unfold Codes; decide
theorem test_code_ldb : Codes 0x28000CA4 (.ldb 4 5 3) := by unfold Codes; decide
theorem test_code_ldh : Codes 0x284008A4 (.ldh 4 5 2) := by unfold Codes; decide
theorem test_code_ldw : Codes 0x28A000A4 (.ldw 4 5 0x800) := by unfold Codes; decide
theorem test_code_ldbu : Codes 0x2A0014A4 (.ldbu 4 5 5) := by unfold Codes; decide
theorem test_code_ldhu : Codes 0x2A4018A4 (.ldhu 4 5 6) := by unfold Codes; decide
theorem test_code_stb : Codes 0x29000CA4 (.stb 4 5 3) := by unfold Codes; decide
theorem test_code_sth : Codes 0x294008A4 (.sth 4 5 2) := by unfold Codes; decide
theorem test_code_stw : Codes 0x298000A5 (.stw 5 5 0) := by unfold Codes; decide
theorem test_code_preld : Codes 0x2AC00CA8 (.preld 8 5 3) := by unfold Codes; decide
theorem test_code_llw : Codes 0x20FFFCA4 (.llw 4 5 0x3FFF) := by unfold Codes; decide
theorem test_code_scw : Codes 0x210004A4 (.scw 4 5 1) := by unfold Codes; decide
theorem test_code_dbar : Codes 0x38727FFF (.dbar 0x7FFF) := by unfold Codes; decide
theorem test_code_ibar : Codes 0x38728001 (.ibar 1) := by unfold Codes; decide
theorem test_code_syscall : Codes 0x002B0011 (.syscall 0x11) := by unfold Codes; decide
theorem test_code_brk : Codes 0x002A7FFF (.brk 0x7FFF) := by unfold Codes; decide
theorem test_code_rdcntvlw : Codes 0x0000601F (.rdcntvlw 31) := by unfold Codes; decide
theorem test_code_rdcntvhw : Codes 0x00006404 (.rdcntvhw 4) := by unfold Codes; decide
theorem test_code_rdcntid : Codes 0x000063E0 (.rdcntid 31) := by unfold Codes; decide

/-! Words written bit by bit from the table of R78, one of each format. -/

theorem test_bits_3R : decodeWord 0b00000000000100010110000101111111 = .ok (.subw 31 11 24) := by decide
theorem test_bits_2RI5 : decodeWord 0b00000000010010001100000001000011 = .ok (.sraiw 3 2 16) := by decide
theorem test_bits_2RI12 : decodeWord 0b00101001101000000000010000011110 = .ok (.stw 30 0 0x801) := by decide
theorem test_bits_2RI14 : decodeWord 0b00100000100000000000010000100010 = .ok (.llw 2 1 0x2001) := by decide
theorem test_bits_2RI16 : decodeWord 0b01011010000000000000010000100010 = .ok (.beq 1 2 0x8001) := by decide
theorem test_bits_1RI20 : decodeWord 0b00011101000000000000000000101000 = .ok (.pcaddu12i 8 0x80001) := by decide
theorem test_bits_I26 : decodeWord 0b01010010000000000000011000000001 = .ok (.b 0x2018001) := by decide
theorem test_bits_I15 : decodeWord 0b00000000001010101000000000000001 = .error (.unlisted 0x002A8001) := by decide
theorem test_bits_2R : decodeWord 0b00000000000000000110001010100000 = .ok (.rdcntid 21) := by decide

theorem test_unlisted_words :
    [0x00000000, 0xFFFFFFFF, 0x000060A4, 0x000064A4, 0x06483800, 0x00108000].all
      (fun w => decodeWord w == .error (.unlisted w)) = true := by decide
theorem test_decode_bytes : decode [0xA4, 0x18, 0x10, 0x00, 0x7F] = .ok (.addw 4 5 6, [0x7F]) := by decide
theorem test_decode_truncated : decode [0xA4, 0x18, 0x10] = .error .truncated := by decide
theorem test_decode_table_word : decodeTableWord 32 0x001018A4 = some (.addw 4 5 6) := by decide

/-! ## States and what is looked at -/

/-- A state as the examples start from: pc 0x1000, all else as after reset. -/
def atStart : State := { State.reset with pc := 0x1000 }

/-- That state with registers set. -/
def regs (rs : List (RegNum × Word)) : State := rs.foldl (fun s r => s.writeGr r.1 r.2) atStart

/-- A state with bytes in memory. -/
def withBytes (a : Nat) (bs : List Byte) (s : State) : State := { s with mem := Memory.writeBytes s.mem a bs }

/-- The memory of the examples of 43_load_store.md and 44_atomic.md. -/
def loads (rs : List (RegNum × Word)) : State :=
  withBytes 0x2000 [0xEF, 0xCD, 0xAB, 0x89, 0x7F, 0x80, 0x00, 0x80] (regs rs)

/-- A register and the pc of a next state. -/
def after (o : Result) (r : RegNum) : Option (Word × Word) :=
  match o with
  | .next t => some (t.readGr r, t.pc)
  | _ => none

/-- The trap of a next state, with the pc. -/
def trapOf (o : Result) : Option (Option Trap × Word) :=
  match o with
  | .next t => some (t.trap, t.pc)
  | _ => none

/-- Four bytes of memory of a next state. -/
def four (o : Result) (a : Nat) : Option (List Byte) :=
  match o with
  | .next t => some (Memory.readBytes t.mem a 4)
  | _ => none

/-- The refusal, if there is one. -/
def refusalOf (o : Result) : Option Refusal :=
  match o with
  | .refused r => some r
  | _ => none

/-! ## One step of each instruction -/

theorem test_addw_wraps : after (exec (.addw 4 5 6) (regs [(5, 0xFFFFFFFF), (6, 1)])) 4 = some (0, 0x1004) := by decide
theorem test_addw_signed : after (exec (.addw 4 5 6) (regs [(5, 0x7FFFFFFF), (6, 1)])) 4 = some (0x80000000, 0x1004) := by decide
theorem test_subw : after (exec (.subw 4 5 6) (regs [(5, 5), (6, 7)])) 4 = some (0xFFFFFFFE, 0x1004) := by decide
theorem test_subw_same_register : after (exec (.subw 5 5 5) (regs [(5, 5)])) 5 = some (0, 0x1004) := by decide
theorem test_addiw : after (exec (.addiw 4 5 0xFFF) (regs [(5, 0x10)])) 4 = some (0xF, 0x1004) := by decide
theorem test_addiw_r0 : after (exec (.addiw 0 5 1) (regs [(5, 0x10)])) 0 = some (0, 0x1004) := by decide
theorem test_lu12iw : after (exec (.lu12iw 8 0x12345) (regs [])) 8 = some (0x12345000, 0x1004) := by decide
theorem test_slt : after (exec (.slt 4 5 6) (regs [(5, 0xFFFFFFFF), (6, 1)])) 4 = some (1, 0x1004) := by decide
theorem test_slt_equal : after (exec (.slt 4 5 6) (regs [(5, 7), (6, 7), (4, 9)])) 4 = some (0, 0x1004) := by decide
theorem test_sltu : after (exec (.sltu 4 5 6) (regs [(5, 0xFFFFFFFF), (6, 1)])) 4 = some (0, 0x1004) := by decide
theorem test_slti : after (exec (.slti 4 5 0xFFF) (regs [(5, 0xFFFFFFFE)])) 4 = some (1, 0x1004) := by decide
theorem test_slti_not : after (exec (.slti 4 5 0xFFF) (regs [(5, 0), (4, 9)])) 4 = some (0, 0x1004) := by decide
theorem test_sltui : after (exec (.sltui 4 5 0xFFF) (regs [(5, 0)])) 4 = some (1, 0x1004) := by decide
theorem test_sltui_boundary : after (exec (.sltui 4 5 0x800) (regs [(5, 0xFFFFF7FF)])) 4 = some (1, 0x1004) := by decide
theorem test_pcaddu12i : after (exec (.pcaddu12i 4 1) (regs [])) 4 = some (0x2000, 0x1004) := by decide
theorem test_pcaddu12i_down : after (exec (.pcaddu12i 4 0xFFFFF) (regs [])) 4 = some (0, 0x1004) := by decide
theorem test_and : after (exec (.and 4 5 6) (regs [(5, 0xF0F0FF00), (6, 0x0FF0F0F0)])) 4 = some (0x00F0F000, 0x1004) := by decide
theorem test_or : after (exec (.or 4 5 6) (regs [(5, 0xF0F0FF00), (6, 0x0FF0F0F0)])) 4 = some (0xFFF0FFF0, 0x1004) := by decide
theorem test_nor : after (exec (.nor 4 5 6) (regs [(5, 0xF0F0FF00), (6, 0x0FF0F0F0)])) 4 = some (0x000F000F, 0x1004) := by decide
theorem test_xor : after (exec (.xor 4 5 6) (regs [(5, 0xF0F0FF00), (6, 0x0FF0F0F0)])) 4 = some (0xFF000FF0, 0x1004) := by decide
theorem test_andi : after (exec (.andi 4 5 0xFFF) (regs [(5, 0xFFFFFFFF)])) 4 = some (0xFFF, 0x1004) := by decide
theorem test_ori : after (exec (.ori 8 8 0x678) (regs [(8, 0x12345000)])) 8 = some (0x12345678, 0x1004) := by decide
theorem test_xori : after (exec (.xori 4 5 0xFFF) (regs [(5, 0xFFFFFFFF)])) 4 = some (0xFFFFF000, 0x1004) := by decide
theorem test_mulw : after (exec (.mulw 4 5 6) (regs [(5, 0x12345678), (6, 0x9ABCDEF0)])) 4 = some (0x242D2080, 0x1004) := by decide
theorem test_mulhw : after (exec (.mulhw 4 5 6) (regs [(5, 0x12345678), (6, 0x9ABCDEF0)])) 4 = some (0xF8CC93D6, 0x1004) := by decide
theorem test_mulhw_min : after (exec (.mulhw 4 5 6) (regs [(5, 0x80000000), (6, 0x80000000)])) 4 = some (0x40000000, 0x1004) := by decide
theorem test_mulhwu : after (exec (.mulhwu 4 5 6) (regs [(5, 0x12345678), (6, 0x9ABCDEF0)])) 4 = some (0x0B00EA4E, 0x1004) := by decide
theorem test_divw : after (exec (.divw 4 5 6) (regs [(5, 0xFFFFFFF9), (6, 2)])) 4 = some (0xFFFFFFFD, 0x1004) := by decide
theorem test_modw : after (exec (.modw 4 5 6) (regs [(5, 7), (6, 0xFFFFFFFE)])) 4 = some (1, 0x1004) := by decide
theorem test_modw_overflow : after (exec (.modw 4 5 6) (regs [(5, 0x80000000), (6, 0xFFFFFFFF), (4, 9)])) 4 = some (0, 0x1004) := by decide
theorem test_divwu : after (exec (.divwu 4 5 6) (regs [(5, 0xFFFFFFF9), (6, 2)])) 4 = some (0x7FFFFFFC, 0x1004) := by decide
theorem test_modwu : after (exec (.modwu 4 5 6) (regs [(5, 0xFFFFFFFF), (6, 0x10)])) 4 = some (0xF, 0x1004) := by decide
theorem test_division_by_zero_advances :
    [Instr.divw 4 5 6, .modw 4 5 6, .divwu 4 5 6, .modwu 4 5 6].all
      (fun i => (after (exec i (regs [(5, 7), (7, 3)])) 7) == some (3, 0x1004)) = true := by decide
theorem test_sllw : after (exec (.sllw 4 5 6) (regs [(5, 0x80000001), (6, 32)])) 4 = some (0x80000001, 0x1004) := by decide
theorem test_sllw_31 : after (exec (.sllw 4 5 6) (regs [(5, 0x80000001), (6, 31)])) 4 = some (0x80000000, 0x1004) := by decide
theorem test_srlw : after (exec (.srlw 4 5 6) (regs [(5, 0x12345678), (6, 0xFFFFFFE4)])) 4 = some (0x01234567, 0x1004) := by decide
theorem test_sraw : after (exec (.sraw 4 5 6) (regs [(5, 0x80000001), (6, 31)])) 4 = some (0xFFFFFFFF, 0x1004) := by decide
theorem test_slliw : after (exec (.slliw 4 5 1) (regs [(5, 0x80000001)])) 4 = some (2, 0x1004) := by decide
theorem test_srliw : after (exec (.srliw 4 5 4) (regs [(5, 0xF0000000)])) 4 = some (0x0F000000, 0x1004) := by decide
theorem test_sraiw : after (exec (.sraiw 4 5 4) (regs [(5, 0xF0000000)])) 4 = some (0xFF000000, 0x1004) := by decide
theorem test_beq : after (exec (.beq 5 4 4) (regs [(5, 0xFFFFFFFF), (4, 1)])) 5 = some (0xFFFFFFFF, 0x1004) := by decide
theorem test_bne : after (exec (.bne 5 4 4) (regs [(5, 0xFFFFFFFF), (4, 1)])) 5 = some (0xFFFFFFFF, 0x1010) := by decide
theorem test_blt : after (exec (.blt 5 4 4) (regs [(5, 0xFFFFFFFF), (4, 1)])) 5 = some (0xFFFFFFFF, 0x1010) := by decide
theorem test_blt_swapped : after (exec (.blt 5 4 4) (regs [(5, 1), (4, 0xFFFFFFFF)])) 5 = some (1, 0x1004) := by decide
theorem test_bge : after (exec (.bge 5 4 4) (regs [(5, 0xFFFFFFFF), (4, 1)])) 5 = some (0xFFFFFFFF, 0x1004) := by decide
theorem test_bge_swapped : after (exec (.bge 5 4 4) (regs [(5, 1), (4, 0xFFFFFFFF)])) 5 = some (1, 0x1010) := by decide
theorem test_bltu : after (exec (.bltu 5 4 4) (regs [(5, 0xFFFFFFFF), (4, 1)])) 5 = some (0xFFFFFFFF, 0x1004) := by decide
theorem test_bltu_swapped : after (exec (.bltu 5 4 4) (regs [(5, 1), (4, 0xFFFFFFFF)])) 5 = some (1, 0x1010) := by decide
theorem test_bgeu : after (exec (.bgeu 5 4 4) (regs [(5, 0xFFFFFFFF), (4, 1)])) 5 = some (0xFFFFFFFF, 0x1010) := by decide
theorem test_bgeu_swapped : after (exec (.bgeu 5 4 4) (regs [(5, 1), (4, 0xFFFFFFFF)])) 5 = some (1, 0x1004) := by decide
theorem test_beq_back : after (exec (.beq 0 0 0xFFFE) (regs [])) 1 = some (0, 0xFF8) := by decide
theorem test_bne_equal : after (exec (.bne 5 4 4) (regs [(5, 5), (4, 5)])) 5 = some (5, 0x1004) := by decide
theorem test_b_high_half : after (exec (.b 0x10000) (regs [])) 1 = some (0, 0x41000) := by decide
theorem test_b_far : after (exec (.b 0x1FFFFFF) (regs [])) 1 = some (0, 0x08000FFC) := by decide
theorem test_bl : after (exec (.bl 3) (regs [])) 1 = some (0x1004, 0x100C) := by decide
theorem test_jirl_same_register : after (exec (.jirl 1 1 0) (regs [(1, 0x2000)])) 1 = some (0x1004, 0x2000) := by decide
theorem test_jirl_misaligned : after (exec (.jirl 1 5 0) (regs [(5, 0x2002)])) 1 = some (0x1004, 0x2002) := by decide
theorem test_ldb : after (exec (.ldb 4 5 3) (loads [(5, 0x2000)])) 4 = some (0xFFFFFF89, 0x1004) := by decide
theorem test_ldb_positive : after (exec (.ldb 4 5 4) (loads [(5, 0x2000)])) 4 = some (0x7F, 0x1004) := by decide
theorem test_ldh : after (exec (.ldh 4 5 2) (loads [(5, 0x2000)])) 4 = some (0xFFFF89AB, 0x1004) := by decide
theorem test_ldh_odd : trapOf (exec (.ldh 4 5 1) (loads [(5, 0x2000)])) = some (some ⟨.ale 0x2001, 0x1000⟩, 0x1000) := by decide
theorem test_ldw : after (exec (.ldw 4 5 0x800) (loads [(5, 0x2800)])) 4 = some (0x89ABCDEF, 0x1004) := by decide
theorem test_ldw_r0_misaligned : trapOf (exec (.ldw 0 5 1) (loads [(5, 0x2000)])) = some (some ⟨.ale 0x2001, 0x1000⟩, 0x1000) := by decide
theorem test_ldbu : after (exec (.ldbu 4 5 5) (loads [(5, 0x2000)])) 4 = some (0x80, 0x1004) := by decide
theorem test_ldhu : after (exec (.ldhu 4 5 6) (loads [(5, 0x2000)])) 4 = some (0x8000, 0x1004) := by decide
theorem test_ldhu_odd : trapOf (exec (.ldhu 4 5 3) (loads [(5, 0x2000)])) = some (some ⟨.ale 0x2003, 0x1000⟩, 0x1000) := by decide

/-- The start of the store examples: AA AA AA AA at 0x2000. -/
def stores (rs : List (RegNum × Word)) : State := withBytes 0x2000 [0xAA, 0xAA, 0xAA, 0xAA] (regs rs)

theorem test_stb : four (exec (.stb 4 5 3) (stores [(4, 0x11223344), (5, 0x2000)])) 0x2000 = some [0xAA, 0xAA, 0xAA, 0x44] := by
  decide
theorem test_sth : four (exec (.sth 4 5 2) (stores [(4, 0x11223344), (5, 0x2000)])) 0x2000 = some [0xAA, 0xAA, 0x44, 0x33] := by
  decide
theorem test_sth_odd : trapOf (exec (.sth 4 5 1) (stores [(5, 0x2000)])) = some (some ⟨.ale 0x2001, 0x1000⟩, 0x1000) := by decide
theorem test_stw : four (exec (.stw 4 5 0) (stores [(4, 0x11223344), (5, 0x2000)])) 0x2000 = some [0x44, 0x33, 0x22, 0x11] := by
  decide
theorem test_stw_base : four (exec (.stw 5 5 0) (stores [(4, 0x11223344), (5, 0x2000)])) 0x2000 = some [0x00, 0x20, 0x00, 0x00] := by
  decide
theorem test_stw_blank_bytes_leave_no_cell :
    (match exec (.stw 0 5 0) (stores [(5, 0x2000)]) with | .next t => t.mem | _ => [(0, 0)]) = [] := by decide
theorem test_preld : after (exec (.preld 0 5 0) (regs [(5, 0xFFFFFFF1)])) 5 = some (0xFFFFFFF1, 0x1004) := by decide
theorem test_ldw_above_range : refusalOf (exec (.ldw 4 5 0) (regs [(5, 0x80000000)])) = some (.unmapped 0x80000000) := by
  decide

/-- An example of 44_atomic.md: LLbit and LLaddr set. -/
def reserved (b : Bool) (a : Word) (rs : List (RegNum × Word)) : State := (loads rs).setReservation b a

theorem test_llw :
    (match exec (.llw 4 5 1) (loads [(5, 0x2000)]) with
      | .next t => (t.readGr 4, t.llbit, t.lladdr, t.pc)
      | _ => (0, false, 0, 0)) = (0x8000807F, true, 0x2004, 0x1004) := by decide
theorem test_llw_misaligned :
    trapOf (exec (.llw 4 5 0) (loads [(5, 0x2002)])) = some (some ⟨.ale 0x2002, 0x1000⟩, 0x1000) := by decide
theorem test_scw_stores :
    four (exec (.scw 4 5 0) (reserved true 0x2000 [(4, 0x11223344), (5, 0x2000)])) 0x2000 =
      some [0x44, 0x33, 0x22, 0x11] ∧
    after (exec (.scw 4 5 0) (reserved true 0x2000 [(4, 0x11223344), (5, 0x2000)])) 4 = some (1, 0x1004) := by decide
theorem test_scw_without_reservation :
    four (exec (.scw 4 5 0) (reserved false 0x2000 [(4, 0x11223344), (5, 0x2000)])) 0x2000 =
      some [0xEF, 0xCD, 0xAB, 0x89] ∧
    after (exec (.scw 4 5 0) (reserved false 0x2000 [(4, 0x11223344), (5, 0x2000)])) 4 = some (0, 0x1004) := by decide
theorem test_dbar : after (exec (.dbar 0x7FFF) (regs [(4, 7)])) 4 = some (7, 0x1004) := by decide
theorem test_ibar :
    (match exec (.ibar 1) ((regs [(4, 7)]).store 0x2000 [1]) with
      | .next t => (t.unsynced, Memory.read t.mem 0x2000, t.pc)
      | _ => ([], 0, 0)) = ([], 1, 0x1004) := by decide
theorem test_syscall : trapOf (exec (.syscall 0x7FFF) atStart) = some (some ⟨.sys 0x7FFF, 0x1000⟩, 0x1000) := by decide
theorem test_brk : trapOf (exec (.brk 1) atStart) = some (some ⟨.brk 1, 0x1000⟩, 0x1000) := by decide
theorem test_rdcntvlw :
    after (exec (.rdcntvlw 4) { atStart with stableCounter := 0x0123456789ABCDEF }) 4 = some (0x89ABCDEF, 0x1004) := by decide
theorem test_rdcntvhw :
    after (exec (.rdcntvhw 4) { atStart with stableCounter := 0x0123456789ABCDEF }) 4 = some (0x01234567, 0x1004) := by decide
theorem test_rdcntid : after (exec (.rdcntid 4) { atStart with counterId := 0x5A }) 4 = some (0x5A, 0x1004) := by decide

/-! ## Steps -/

theorem test_step_runs_the_loaded_word :
    after (step (State.reset.withFetchWord 32 0x02BFFCA4)) 4 = some (0xFFFFFFFF, 0x1C000004) := by decide
theorem test_step_at_reset_is_unlisted : refusalOf (step State.reset) = some (.unlisted 0) := by decide
theorem test_step_misaligned_pc :
    trapOf (step { atStart with pc := 0x2002 }) = some (some ⟨.adef 0x2002, 0x2002⟩, 0x2002) := by decide

/-! ## Hypotheses that can be met: one theorem for every obligation that has some, with a case for each of its clauses -/

/-- The next state of an answer. -/
def nextOf : Result → State
  | .next t => t
  | _ => State.reset

/-- The example state with a word at the pc. -/
def running (w : Word) (rs : List (RegNum × Word)) : State := (loads rs).withFetchWord 32 w.toNat

theorem witness_DecodeReadsEncodedInstruction : Instr.wf (.rdcntid 31) = true ∧ Instr.wf (.sraiw 31 0 31) = true := by decide
theorem witness_EncodeRestoresDecodedWord : decodeWord 0x001018A4 = .ok (.addw 4 5 6) := by decide
theorem witness_DecodeFollowsOpcodeTable :
    decodeWord 0x00006020 = .ok (.rdcntid 1) ∧
    ((Instr.rdcntid 0).row ∈ opcodeRows ∧ 0x00006020 &&& (Instr.rdcntid 0).row.mask = (Instr.rdcntid 0).row.pattern ∧
      (0x00006020 : Word) ≠ 0x00006000) ∧
    ∀ row ∈ opcodeRows, 0xFFFFFFFF &&& row.mask ≠ row.pattern := by decide
theorem witness_RdtimeFormsAreUnlisted : (5 : RegNum) ≠ 0 ∧ (4 : RegNum) ≠ 0 := by decide
theorem witness_StepRunsDecodedInstruction :
    (running 0x001018A4 []).trap = none ∧ Configured (running 0x001018A4 []).platform ∧
    Aligned (running 0x001018A4 []).pc 4 ∧
    fetchWord (environment (running 0x001018A4 [])) = .ok 0x001018A4 ∧ decodeWord 0x001018A4 = .ok (.addw 4 5 6) := by
  unfold Aligned Configured Exposed; decide

/-- A state with an unsynchronised store over the pc, an arriving store there, and a trap already taken. -/
def disturbed : State :=
  { (atStart.store 0x1000 [1, 2, 3, 4]) with
    incoming := [[⟨0x1002, [9, 9]⟩, ⟨0x1004, [9]⟩]], trap := some ⟨.brk 0, 0x1000⟩ }

theorem witness_LoadedWordRunsNext :
    Configured disturbed.platform ∧ Aligned disturbed.pc 4 ∧
    Accessible disturbed.platform .read disturbed.pc.toNat 4 ∧ InStorage disturbed.platform disturbed.pc.toNat 4 ∧
    decodeWord 0x001018A4 = .ok (.addw 4 5 6) := by unfold Aligned Accessible InStorage Configured Exposed; decide
theorem witness_MisalignedPcRaisesAdef :
    (({ atStart with pc := 0x1001 } : State).trap = none ∧ Configured atStart.platform ∧
      ¬Aligned ({ atStart with pc := 0x1001 } : State).pc 4) ∧
    (Aligned (running 0x002B0000 []).pc 4 ∧
      step (running 0x002B0000 []) = .next (nextOf (step (running 0x002B0000 []))) ∧
      (nextOf (step (running 0x002B0000 []))).trap = some ⟨.sys 0, 0x1000⟩) := by
  refine ⟨⟨by decide, by unfold Configured Exposed; decide, by unfold Aligned; decide⟩, by unfold Aligned; decide, rfl, rfl⟩
theorem witness_OnlyJirlMisalignsPc :
    Aligned (regs [(5, 0x2002)]).pc 4 ∧
    exec (.jirl 1 5 0) (regs [(5, 0x2002)]) = .next (nextOf (exec (.jirl 1 5 0) (regs [(5, 0x2002)]))) ∧
    exec (.addw 4 5 6) (regs [(5, 0x2002)]) = .next (nextOf (exec (.addw 4 5 6) (regs [(5, 0x2002)]))) :=
  ⟨by unfold Aligned; decide, rfl, rfl⟩

/-- A platform that lists a word as non-existent. -/
def listing (w : Word) : State :=
  { running w [] with platform := { Config.defaultPlatform with ineWords := [w] } }

/-- A word at the pc, on a platform with four bytes of another MAT value or backing at 0x3000. -/
def besides (mat : BitVec 2) (backing : Config.Backing) : State :=
  { running 0x03400000 [] with
    platform := { Config.defaultPlatform with regions := ⟨0x3000, 4, mat, backing⟩ :: Config.defaultPlatform.regions } }

theorem test_step_refuses_reserved_mat :
    refusalOf (step (besides 3 .storage)) = some (.reservedConfiguration 3) ∧
    (after (step (besides 1 .storage)) 0).map Prod.snd = some 0x1004 := by decide
theorem test_step_refuses_exposed_device :
    refusalOf (step (besides 0 (.device true true))) = some (.exposedDevice 0x3000) ∧
    refusalOf (step (besides 1 (.device true false))) = some (.exposedDevice 0x3000) := by decide
theorem test_step_runs_beside_harmless_devices :
    (after (step (besides 0 (.device true false))) 0).map Prod.snd = some 0x1004 ∧
    (after (step (besides 0 (.device false true))) 0).map Prod.snd = some 0x1004 := by decide

/-- The example state on a platform with a harmless device in the four bytes from 0x2000 on. -/
def atDevice (mat : BitVec 2) (rs : List (RegNum × Word)) : State :=
  { loads rs with
    platform := { Config.defaultPlatform with
      regions := ⟨0x2000, 4, mat, .device false true⟩ :: Config.defaultPlatform.regions } }

theorem test_load_of_device_completes :
    (match exec (.ldhu 4 5 2) (atDevice 0 [(5, 0x2000)]) with
      | .next t => (t.pc, t.deviceAccesses, t.draws)
      | _ => (0, [], 0)) = (0x1004, [.load 0x2002 2], 1) ∧
    (after (exec (.ldbu 4 5 4) (atDevice 0 [(5, 0x2000)])) 4) = some (0x7F, 0x1004) := by decide
theorem test_store_to_device_completes :
    (match exec (.stb 4 5 0) (atDevice 0 [(4, 0x11223344), (5, 0x2000)]) with
      | .next t => (t.pc, t.deviceAccesses, Memory.readBytes t.mem 0x2000 4, t.unsynced)
      | _ => (0, [], [], [])) = (0x1004, [.store 0x2000 [0x44]], [0xEF, 0xCD, 0xAB, 0x89], []) := by
  decide
theorem test_free_byte_of_device_reaches_register (b : Byte) (h : Config.deviceByte 0 0x2000 = b) :
    (after (exec (.ldbu 4 5 0) (atDevice 0 [(5, 0x2000)])) 4) = some (b.zeroExtend 32, 0x1004) := by subst h; rfl

theorem witness_UnlistedWordRaisesIneOrIsRefused :
    ((listing 0xFFFFFFFF).trap = none ∧ Configured (listing 0xFFFFFFFF).platform ∧ Aligned (listing 0xFFFFFFFF).pc 4 ∧
      fetchWord (environment (listing 0xFFFFFFFF)) = .ok 0xFFFFFFFF ∧
      decodeWord 0xFFFFFFFF = .error (.unlisted 0xFFFFFFFF) ∧ 0xFFFFFFFF ∈ (listing 0xFFFFFFFF).platform.ineWords) ∧
    fetchWord (environment (running 0xFFFFFFFF [])) = .ok 0xFFFFFFFF ∧
    0xFFFFFFFF ∉ (running 0xFFFFFFFF []).platform.ineWords := by unfold Aligned Configured Exposed; decide
theorem witness_FetchOutsideMapIsRefused :
    let s : State := { atStart with pc := 0x80000000 }
    s.trap = none ∧ (Configured s.platform ∧ Aligned s.pc 4 ∧
      accessRefusal s.platform .read s.pc.toNat 4 = some (.unmapped 0x80000000) ∧
      s.platform.addrMax.toNat < s.pc.toNat) ∧
    ((besides 2 .storage).trap = none ∧
      (⟨0x3000, 4, 2, .storage⟩ : Config.Region) ∈ (besides 2 .storage).platform.regions) ∧
    (besides 0 (.device true true)).trap = none ∧
    (∀ q ∈ (besides 0 (.device true true)).platform.regions, q.mat = 0 ∨ q.mat = 1) ∧
    (⟨0x3000, 4, 0, .device true true⟩ : Config.Region) ∈ (besides 0 (.device true true)).platform.regions ∧
    Exposed ⟨0x3000, 4, 0, .device true true⟩ := by
  unfold Aligned Configured Exposed; decide
theorem witness_TrapEndsRun :
    EndedIn ({ atStart with trap := some ⟨.brk 0, 0x1000⟩ } : State) ⟨.brk 0, 0x1000⟩ ∧ atStart.trap = none := ⟨rfl, rfl⟩

/-- Stores arriving: a word and a halfword over it, one that is misaligned, one half outside the map; a reservation
elsewhere. -/
def arriving : State :=
  { reserved true 0x2000 [] with
    incoming := [[⟨0x3000, [1, 2, 3, 4]⟩, ⟨0x3005, [5, 5]⟩, ⟨0x7FFFFFFE, [6, 6, 6, 6]⟩, ⟨0x3002, [7, 8]⟩]] }

theorem test_foreign_stores_arrive_whole :
    Memory.readBytes (environmentWith false 3 arriving).mem 0x3000 8 = [1, 2, 7, 8, 0, 0, 0, 0] ∧
    Memory.read (environmentWith false 3 arriving).mem 0x7FFFFFFE = 0 := by decide

/-- A reservation on a cached device's word, and another agent's store to that word. -/
def arrivingAtDevice : State :=
  { (atDevice 1 []).setReservation true 0x2000 with incoming := [[⟨0x2002, [7, 8]⟩]] }

theorem test_foreign_store_at_device_clears_llbit :
    (environmentWith false 0 arrivingAtDevice).llbit = false ∧
    (environmentWith false 0 { arrivingAtDevice with lladdr := 0x2004 }).llbit = true ∧
    Memory.readBytes (environmentWith false 0 arrivingAtDevice).mem 0x2000 4 = [0xEF, 0xCD, 0xAB, 0x89] ∧
    (environmentWith false 0 arrivingAtDevice).unsynced = [] := by decide

theorem witness_EnvironmentActsOnlyAsAllowed :
    (environmentWith false 3 arriving).llbit = true ∧
    [⟨0x3000, [1, 2, 3, 4]⟩, ⟨0x3002, [7, 8]⟩] =
      (arriving.incoming.headD []).filter (fun c => c.arrives arriving.platform) ∧
    (∀ c ∈ ([⟨0x3000, [1, 2, 3, 4]⟩, ⟨0x3002, [7, 8]⟩] : List ForeignStore), c.covers 0x3004 = false) ∧
    deviceAt arriving.platform (0x3000 + 1) = false ∧
    (∀ d ∈ ([⟨0x3002, [7, 8]⟩] : List ForeignStore), d.covers (0x3000 + 1) = false) ∧
    deviceAt arrivingAtDevice.platform 0x2002 = true := by decide

theorem inv_running : Inv (running 0x03400000 []) where
  canonical := by decide
  inRange := by decide
  unsyncedInRange := by decide
  reservationAligned := by unfold Aligned; decide
  trapAtPc := by intro t h; cases h
theorem witness_StepKeepsInvariant :
    Inv (running 0x03400000 []) ∧ step (running 0x03400000 []) = .next (nextOf (step (running 0x03400000 []))) :=
  ⟨inv_running, rfl⟩
theorem witness_RunConstantsAreKept :
    exec (.addw 4 5 6) atStart = .next (nextOf (exec (.addw 4 5 6) atStart)) ∧
    step (running 0x03400000 []) = .next (nextOf (step (running 0x03400000 []))) := ⟨rfl, rfl⟩
theorem witness_TrapIsPrecise :
    (atStart.trap = none ∧ exec (.ldw 4 0 1) atStart = .next (nextOf (exec (.ldw 4 0 1) atStart)) ∧
      (nextOf (exec (.ldw 4 0 1) atStart)).trap = some ⟨.ale 1, 0x1000⟩) ∧
    (step (running 0x002A0000 []) = .next (nextOf (step (running 0x002A0000 []))) ∧
      (nextOf (step (running 0x002A0000 []))).trap = some ⟨.brk 0, 0x1000⟩) := ⟨⟨rfl, rfl, rfl⟩, rfl, rfl⟩

/-- A step that ends in the trap. -/
def TrapsWith (s : State) (e : Exception) : Prop :=
  step s = .next (nextOf (step s)) ∧ (nextOf (step s)).trap = some ⟨e, s.pc⟩

theorem witness_ExceptionsHaveTheListedSources :
    TrapsWith { atStart with pc := 0x2002 } (.adef 0x2002) ∧ TrapsWith (listing 0xFFFFFFFF) (.ine 0xFFFFFFFF) ∧
    TrapsWith (running 0x002B0011 []) (.sys 0x11) ∧ TrapsWith (running 0x002A0001 []) (.brk 1) ∧
    TrapsWith (running 0x288008A4 [(5, 0x2000)]) (.ale 0x2002) :=
  ⟨⟨rfl, rfl⟩, ⟨rfl, rfl⟩, ⟨rfl, rfl⟩, ⟨rfl, rfl⟩, ⟨rfl, rfl⟩⟩
theorem witness_UnnamedRegistersAreKept :
    exec (.bl 3) atStart = .next (nextOf (exec (.bl 3) atStart)) ∧ destination (.bl 3) ≠ some 2 := ⟨rfl, by decide⟩
theorem witness_UnnamedRegistersAreNotRead :
    SameButRegisters (regs [(5, 1), (7, 2)]) (regs [(5, 1), (7, 3)]) ∧
    ∀ r ∈ sources (.addw 4 5 6), (regs [(5, 1), (7, 3)]).readGr r = (regs [(5, 1), (7, 2)]).readGr r :=
  ⟨by unfold SameButRegisters; decide, by decide⟩
theorem witness_PcMovesByTransferOrFour :
    atStart.trap = none ∧ exec (.beq 0 0 4) atStart = .next (nextOf (exec (.beq 0 0 4) atStart)) ∧
    exec (.bne 0 0 4) atStart = .next (nextOf (exec (.bne 0 0 4) atStart)) ∧
    exec (.syscall 0) atStart = .next (nextOf (exec (.syscall 0) atStart)) := ⟨rfl, rfl, rfl, rfl⟩
theorem witness_MemoryChangesByStoresAlone :
    (exec (.addw 4 5 6) atStart = .next (nextOf (exec (.addw 4 5 6) atStart)) ∧ isStore (.addw 4 5 6) = false) ∧
    (exec (.stw 4 5 0) (stores [(5, 0x2000)]) = .next (nextOf (exec (.stw 4 5 0) (stores [(5, 0x2000)]))) ∧
      dataAccess (stores [(5, 0x2000)]) (.stw 4 5 0) = some (0x2000, 4) ∧
      (0x1FFF < (0x2000 : Word).toNat ∧ (0x2000 : Word).toNat + 4 ≤ 0x2004)) ∧
    ∀ i ∈ [Instr.ldw 4 5 0, .stw 4 5 0],
      exec i (atDevice 0 [(5, 0x2000)]) = .next (nextOf (exec i (atDevice 0 [(5, 0x2000)]))) ∧
      (nextOf (exec i (atDevice 0 [(5, 0x2000)]))).deviceAccesses ≠ [] ∧
      dataAccess (atDevice 0 [(5, 0x2000)]) i = some (0x2000, 4) ∧
      touchesDevice (atDevice 0 []).platform (0x2000 : Word).toNat 4 = true :=
  ⟨⟨rfl, rfl⟩, ⟨rfl, by decide, by decide⟩, by
    simp only [List.mem_cons, List.not_mem_nil, or_false, forall_eq_or_imp, forall_eq]
    exact ⟨⟨rfl, by decide, by decide, by decide⟩, rfl, by decide, by decide, by decide⟩⟩
theorem witness_ReservationChangesByLlAndScAlone :
    (exec (.ldw 4 5 0) (loads []) = .next (nextOf (exec (.ldw 4 5 0) (loads []))) ∧
      (∀ rd rj x, Instr.ldw 4 5 0 ≠ .llw rd rj x) ∧ ∀ rd rj x, Instr.ldw 4 5 0 ≠ .scw rd rj x) ∧
    exec (.scw 4 5 0) (loads []) = .next (nextOf (exec (.scw 4 5 0) (loads []))) :=
  ⟨⟨rfl, by intros; simp, by intros; simp⟩, rfl⟩
theorem witness_MisalignedDataAccessRaisesAle :
    (dataAccess (regs [(5, 0x2001)]) (.ldh 4 5 0) = some (0x2001, 2) ∧ ¬Aligned 0x2001 2) ∧
    (dataAccess (regs [(5, 0x2002)]) (.scw 4 5 0) = some (0x2002, 4) ∧ ¬Aligned 0x2002 4) ∧
    ((∀ a n, dataAccess atStart (.syscall 0) = some (a, n) → Aligned a n) ∧ atStart.trap = none ∧
      exec (.syscall 0) atStart = .next (nextOf (exec (.syscall 0) atStart)) ∧
      (nextOf (exec (.syscall 0) atStart)).trap = some ⟨.sys 0, 0x1000⟩) :=
  ⟨by unfold Aligned; decide, by unfold Aligned; decide, (by intro a n h; cases h), rfl, rfl, rfl⟩
/-- A platform whose first 64 KiB can only be read. -/
def inRom (rs : List (RegNum × Word)) : State :=
  { loads rs with platform := { Config.defaultPlatform with regions := [⟨0, 0x10000, 1, .readOnly⟩] } }

theorem test_rom_is_read_and_not_written :
    after (exec (.ldw 4 5 0) (inRom [(5, 0x2000)])) 4 = after (exec (.ldw 4 5 0) (loads [(5, 0x2000)])) 4 ∧
    refusalOf (exec (.stb 4 5 1) (inRom [(5, 0x2000)])) = some (.readOnly 0x2001) := by decide

theorem witness_AccessOutsideMapIsRefused_readOnly : ReadOnly (inRom []).platform 0x2000 4 :=
  fun k hk => ⟨⟨0, 0x10000, 1, .readOnly⟩, by revert k; decide, by decide, rfl⟩

theorem witness_AccessOutsideMapIsRefused :
    (dataAccess (regs [(5, 0x80000000)]) (.ldh 4 5 0) = some (0x80000000, 2) ∧ Aligned 0x80000000 2 ∧
      accessRefusal (regs []).platform (accessKind (.ldh 4 5 0)) (0x80000000 : Word).toNat 2 =
        some (.unmapped 0x80000000)) ∧
    (dataAccess (inRom [(5, 0x2000)]) (.stw 4 5 0) = some (0x2000, 4) ∧ Aligned 0x2000 4 ∧
      isStore (.stw 4 5 0) = true ∧ accessRefusal (inRom []).platform .write (0x2000 : Word).toNat 4 =
        some (.readOnly 0x2000)) ∧
    (dataAccess (reserved true 0x80000000 [(5, 0x80000000)]) (.scw 4 5 0) = some (0x80000000, 4) ∧
      (reserved true 0x80000000 [(5, 0x80000000)]).llbit = true) := by unfold Aligned; decide

/-- A platform whose first 64 KiB are strongly-ordered uncached. -/
def uncached (b : Bool) (rs : List (RegNum × Word)) : State :=
  { reserved b 0x2000 rs with
    platform := { Config.defaultPlatform with regions := [⟨0, 0x10000, 0, .storage⟩] } }

theorem witness_OnlyDataAccessesStop :
    exec (.ldw 4 5 0) (regs [(5, 0x80000000)]) = .refused (.unmapped 0x80000000) ∧
    exec (.llw 4 5 0) (uncached false [(5, 0x2000)]) = .refused (.llscUncached 0x2000) ∧
    exec (.scw 4 5 0) (uncached true [(5, 0x2000)]) = .refused (.llscUncached 0x2000) ∧
    exec (.scw 4 5 0) (reserved true 0x2004 [(5, 0x2000)]) = .refused (.scAddress 0x2000 0x2004) ∧
    exec (.stw 4 5 0) (inRom [(5, 0x2000)]) = .refused (.readOnly 0x2000) := ⟨rfl, rfl, rfl, rfl, rfl⟩
theorem witness_DivisionLaw :
    let s := regs [(5, 0xFFFFFFF9), (6, 2)]
    (4 : RegNum) ≠ 0 ∧ s.readGr 6 ≠ 0 ∧ ¬((s.readGr 5).toInt = -2 ^ 31 ∧ (s.readGr 6).toInt = -1) ∧
    exec (.divw 4 5 6) s = .next (nextOf (exec (.divw 4 5 6) s)) ∧
    exec (.modw 4 5 6) s = .next (nextOf (exec (.modw 4 5 6) s)) ∧
    exec (.divwu 4 5 6) s = .next (nextOf (exec (.divwu 4 5 6) s)) ∧
    exec (.modwu 4 5 6) s = .next (nextOf (exec (.modwu 4 5 6) s)) :=
  ⟨by decide, by decide, by decide, rfl, rfl, rfl, rfl⟩
theorem witness_DivisionOverflow :
    (regs [(5, 0x80000000), (6, 0xFFFFFFFF)]).readGr 5 = 0x80000000 ∧
    (regs [(5, 0x80000000), (6, 0xFFFFFFFF)]).readGr 6 = 0xFFFFFFFF := by decide

/-- The boundary addresses of an access: the last that can be made in the range, and a misaligned one. -/
def AccessClauses (s : State) (kind : AccessKind) : Prop :=
  Accessible s.platform kind (0x7FFFFFFF : Word).toNat 1 ∧
  (Aligned 0x7FFFFFFE 2 ∧ Accessible s.platform kind (0x7FFFFFFE : Word).toNat 2) ∧
  (Aligned 0x7FFFFFFC 4 ∧ Accessible s.platform kind (0x7FFFFFFC : Word).toNat 4) ∧
  ¬Aligned 0x2001 2 ∧ ¬Aligned 0x2002 4

theorem witness_LoadResults : AccessClauses (loads []) .read ∧
    (0x7FFFFFFF : Word) = (loads [(5, 0x80000000)]).readGr 5 + (0xFFF : BitVec 12).signExtend 32 ∧
    Accessible (atDevice 0 []).platform .read (0x2000 : Word).toNat 4 ∧ deviceAt (atDevice 0 []).platform 0x2003 = true ∧
    deviceAt (atDevice 0 []).platform 0x2004 = false := by
  unfold AccessClauses Aligned Accessible; decide
theorem witness_StoreResults : AccessClauses (stores []) .write ∧
    (0x7FFFFFFC : Word) = (stores [(5, 0x80000000)]).readGr 5 + (0xFFC : BitVec 12).signExtend 32 ∧
    Accessible (atDevice 0 []).platform .write (0x2000 : Word).toNat 4 := by
  unfold AccessClauses Aligned Accessible; decide

/-- The state after ST.W of r4 at 0x2000. -/
def justStored : State := nextOf (exec (.stw 4 5 0) (stores [(4, 0x81828384), (5, 0x2000)]))

/-- After a step with a NOP, while another agent's store to the next word arrives. -/
def laterOn : State := nextOf (exec (.andi 0 0 0) (environmentWith true 1 { justStored with incoming := [[⟨0x2004, [9]⟩]] }))

/-- The state in which the load is executed. -/
def atLoad : State := environmentWith false 2 laterOn

theorem witness_LoadsSeeTheStoredWord :
    exec (.stw 4 5 0) { stores [(4, 0x81828384), (5, 0x2000)] with incoming := [[⟨0x2004, [9]⟩]] } =
      .next { justStored with incoming := [[⟨0x2004, [9]⟩]] } ∧ justStored.trap = none ∧
    InStorage (stores []).platform 0x2000 4 ∧
    Relation.ReflTransGen (leavesWord 0x2000) { justStored with incoming := [[⟨0x2004, [9]⟩]] } laterOn ∧
    NothingArrivesAt laterOn 0x2000 ∧
    (exec (.ldw 6 5 0) atLoad = .next (nextOf (exec (.ldw 6 5 0) atLoad)) ∧
      (nextOf (exec (.ldw 6 5 0) atLoad)).trap = none ∧ (dataAddress atLoad 5 0).toNat = 0x2000) ∧
    (exec (.ldhu 6 5 2) atLoad = .next (nextOf (exec (.ldhu 6 5 2) atLoad)) ∧
      (nextOf (exec (.ldhu 6 5 2) atLoad)).trap = none ∧ (dataAddress atLoad 5 2).toNat = 0x2000 + 2) ∧
    (exec (.ldb 6 5 3) atLoad = .next (nextOf (exec (.ldb 6 5 3) atLoad)) ∧
      (nextOf (exec (.ldb 6 5 3) atLoad)).trap = none ∧ (dataAddress atLoad 5 3).toNat = 0x2000 + 3) :=
  ⟨rfl, rfl, by unfold InStorage; decide,
    .single ⟨by unfold NothingArrivesAt; decide, true, 1, .andi 0 0 0, rfl, by intro a n h; cases h⟩,
    by unfold NothingArrivesAt; decide, ⟨rfl, rfl, by decide⟩, ⟨rfl, rfl, by decide⟩, ⟨rfl, rfl, by decide⟩⟩
theorem witness_LoadLinkedResult :
    (0x2000 : Word) = (loads [(5, 0x2004)]).readGr 5 + ((0x3FFF : BitVec 14) ++ 0#2).signExtend 32 ∧ Aligned 0x2000 4 ∧
    Accessible (loads []).platform .read (0x2000 : Word).toNat 4 ∧ Cached (loads []).platform (0x2000 : Word).toNat 4 ∧
    Accessible (atDevice 1 []).platform .read (0x2000 : Word).toNat 4 ∧
    Cached (atDevice 1 []).platform (0x2000 : Word).toNat 4 := by
  unfold Aligned Accessible Cached; decide
theorem witness_StoreConditionalResult :
    ((0x2000 : Word) = (reserved true 0x2000 [(5, 0x2000)]).readGr 5 + ((0 : BitVec 14) ++ 0#2).signExtend 32 ∧
      Aligned 0x2000 4 ∧ (reserved true 0x2000 [(5, 0x2000)]).llbit = true ∧
      (reserved true 0x2000 [(5, 0x2000)]).lladdr = 0x2000 ∧
      Accessible (reserved true 0x2000 []).platform .write (0x2000 : Word).toNat 4 ∧
      Cached (reserved true 0x2000 []).platform (0x2000 : Word).toNat 4) ∧
    (reserved false 0x2000 [(5, 0x80000000)]).llbit = false := by
  unfold Aligned Accessible Cached; decide
theorem witness_StoreConditionalTestsLLbit :
    (exec (.llw 4 5 0) (loads [(5, 0x2000)]) = .next (nextOf (exec (.llw 4 5 0) (loads [(5, 0x2000)]))) ∧
      (nextOf (exec (.llw 4 5 0) (loads [(5, 0x2000)]))).trap = none) ∧
    (∀ b, exec (.scw 4 5 0) (reserved b 0x2000 [(5, 0x2000)]) =
        .next (nextOf (exec (.scw 4 5 0) (reserved b 0x2000 [(5, 0x2000)]))) ∧
      (nextOf (exec (.scw 4 5 0) (reserved b 0x2000 [(5, 0x2000)]))).trap = none) ∧
    deviceAt (reserved true 0x2000 []).platform (0x2000 + 3) = false :=
  ⟨⟨rfl, rfl⟩, (fun b => by cases b <;> exact ⟨rfl, rfl⟩), by decide⟩
theorem witness_AtomicContractIsRefused :
    ((0x2000 : Word) = atomicAddress (reserved true 0x2004 [(5, 0x2000)]) 5 0 ∧ Aligned 0x2000 4 ∧
      (reserved true 0x2004 [(5, 0x2000)]).llbit = true ∧ 0x2000 ≠ (reserved true 0x2004 [(5, 0x2000)]).lladdr) ∧
    ((0x2000 : Word) = atomicAddress (uncached true [(5, 0x2000)]) 5 0 ∧
      Accessible (uncached true []).platform .read (0x2000 : Word).toNat 4 ∧
      Accessible (uncached true []).platform .write (0x2000 : Word).toNat 4 ∧
      ¬Cached (uncached true []).platform (0x2000 : Word).toNat 4 ∧ (uncached true []).llbit = true ∧
      0x2000 = (uncached true []).lladdr) := by
  unfold Aligned Accessible Cached; decide

/-- After the LL.W of an atomic pair. -/
def linked : State := nextOf (exec (.llw 6 5 0) (loads [(4, 7), (5, 0x2000)]))

/-- After a NOP between the two. -/
def betweenPair : State := nextOf (exec (.andi 0 0 0) (environmentWith false 0 linked))

theorem witness_AtomicPairExcludesForeignWrites :
    exec (.llw 6 5 0) (loads [(4, 7), (5, 0x2000)]) = .next linked ∧ linked.trap = none ∧
    Relation.ReflTransGen betweenLlAndSc linked betweenPair ∧
    exec (.scw 4 5 0) (environmentWith false 9 betweenPair) =
      .next (nextOf (exec (.scw 4 5 0) (environmentWith false 9 betweenPair))) ∧
    (nextOf (exec (.scw 4 5 0) (environmentWith false 9 betweenPair))).trap = none ∧ (4 : RegNum) ≠ 0 ∧
    (nextOf (exec (.scw 4 5 0) (environmentWith false 9 betweenPair))).readGr 4 = 1 ∧
    InStorage (loads []).platform linked.lladdr.toNat 4 :=
  ⟨rfl, rfl, .single ⟨false, 0, .andi 0 0 0, rfl, by intros; simp, by intros; simp, by intro a n h; cases h⟩, rfl, rfl,
    by decide, by decide, by unfold InStorage; decide⟩
theorem witness_FetchAfterIbarSeesStores :
    exec (.ibar 0) justStored = .next (nextOf (exec (.ibar 0) justStored)) ∧
    (FetchSynced atStart 0x1FFF ∧ (∀ c ∈ atStart.incoming.headD [], c.covers 0x1FFF = false) ∧
      exec (.stw 0 0 0) (environment atStart) = .next (nextOf (exec (.stw 0 0 0) (environment atStart))) ∧
      ∀ addr n, isStore (.stw 0 0 0) = true → dataAccess (environment atStart) (.stw 0 0 0) = some (addr, n) →
        0x1FFF < addr.toNat ∨ addr.toNat + n ≤ 0x1FFF) ∧
    (deviceAt atStart.platform 0x1FFF = false ∧ FetchSynced atStart 0x1FFF) := by
  refine ⟨rfl, ⟨(by intro u h; cases h), (by intro c h; cases h), rfl, fun addr n _ h => ?_⟩, by decide,
    by intro u h; cases h⟩
  simp only [dataAccess, dataAddress, Option.some.injEq, Prod.mk.injEq] at h
  obtain ⟨rfl, rfl⟩ := h
  right; decide
theorem witness_FetchSeesOldOrNewStore :
    exec (.stw 4 5 0) (stores [(4, 0x81828384), (5, 0x2000)]) = .next justStored ∧ justStored.trap = none ∧
    0x2000 = (dataAddress (stores [(4, 0x81828384), (5, 0x2000)]) 5 0).toNat ∧
    InStorage (stores []).platform 0x2000 4 ∧
    (∀ k, k < 4 → FetchSynced (stores [(4, 0x81828384), (5, 0x2000)]) (0x2000 + k)) ∧
    ({ atStart with incoming := [[⟨0x3000, [1, 2, 3, 4]⟩]] } : State).incoming.headD [] = [⟨0x3000, [1, 2, 3, 4]⟩] ∧
    InStorage atStart.platform 0x3000 4 ∧
    ∀ k, k < 4 → FetchSynced { atStart with incoming := [[⟨0x3000, [1, 2, 3, 4]⟩]] } (0x3000 + k) :=
  ⟨rfl, rfl, by decide, by unfold InStorage; decide, (by intro k _ u h; cases h), rfl, by unfold InStorage; decide,
    (by intro k _ u h; cases h)⟩

end Sys2Proof.Tests
end

