-- ==== Sys2Proof/Proofs/Scope.lean ====
section
/-! PROOFS. The obligation of 00_scope.md: what the environment of R10 does before a step. The stores that do not arrive are
dropped once (`foreignWrites_filter_arrives`); what is left is one lemma a field over a list of stores that all arrive. -/

namespace Sys2Proof.Machine

open Sys2Proof.Safety

/-! ## One store that arrives -/

theorem foreignWrite_of_arrives (s : State) (c : ForeignStore) (h : c.arrives s.platform = true) :
    foreignWrite s c = { s.store c.addr c.bytes with llbit := s.llbit && !inReservation s.lladdr c.addr } :=
  if_pos h

@[simp] theorem foreignWrite_lladdr (s : State) (c : ForeignStore) : (foreignWrite s c).lladdr = s.lladdr := by
  obtain ⟨-, -, -, hlladdr, -⟩ := foreignWrite_frame s c
  exact hlladdr

@[simp] theorem foreignWrite_platform (s : State) (c : ForeignStore) : (foreignWrite s c).platform = s.platform := by
  obtain ⟨-, -, -, -, -, -, -, -, hplatform, -⟩ := foreignWrite_frame s c
  exact hplatform

theorem inReservation_eq_false (lladdr : Word) (a : Nat) :
    inReservation lladdr a = false ↔ a / 4 ≠ lladdr.toNat / 4 := by
  simp [inReservation]

/-! ## Several stores, in their order -/

@[simp] theorem foreignWrites_nil (s : State) : foreignWrites s [] = s := rfl

@[simp] theorem foreignWrites_cons (s : State) (c : ForeignStore) (cs : List ForeignStore) :
    foreignWrites s (c :: cs) = foreignWrites (foreignWrite s c) cs := rfl

theorem foreignWrites_append (s : State) (before after : List ForeignStore) :
    foreignWrites s (before ++ after) = foreignWrites (foreignWrites s before) after :=
  List.foldl_append

@[simp] theorem foreignWrites_platform (s : State) (cs : List ForeignStore) :
    (foreignWrites s cs).platform = s.platform := by
  obtain ⟨-, -, -, -, -, -, -, -, hplatform, -⟩ := foreignWrites_frame cs s
  exact hplatform

/-- The stores that do not arrive do nothing, so they can be left out. -/
theorem foreignWrites_filter_arrives (s : State) (cs : List ForeignStore) :
    foreignWrites s (cs.filter (fun c => c.arrives s.platform)) = foreignWrites s cs := by
  induction cs generalizing s with
  | nil => rfl
  | cons c cs ih =>
    rcases foreignWrite_cases s c with ⟨arrives, -⟩ | ⟨fails, unchanged⟩
    · have rest := ih (foreignWrite s c)
      rw [foreignWrite_platform] at rest
      simp [arrives, rest]
    · simp [fails, unchanged, ih]

/-- LLbit stays set exactly where no store falls in the word at LLaddr (R186 item 1). -/
theorem foreignWrites_llbit_iff (s : State) (cs : List ForeignStore) (h : ∀ c ∈ cs, c.arrives s.platform = true) :
    (foreignWrites s cs).llbit = true ↔ s.llbit = true ∧ ∀ c ∈ cs, c.addr / 4 ≠ s.lladdr.toNat / 4 := by
  induction cs generalizing s with
  | nil => simp
  | cons c cs ih =>
    obtain ⟨hc, hcs⟩ := List.forall_mem_cons.mp h
    have first : (foreignWrite s c).llbit = true ↔ s.llbit = true ∧ c.addr / 4 ≠ s.lladdr.toNat / 4 := by
      simp [foreignWrite_of_arrives s c hc, inReservation_eq_false]
    rw [foreignWrites_cons, ih _ (by simpa using hcs), first, foreignWrite_lladdr, List.forall_mem_cons, and_assoc]

/-- A byte that no store covers, and a device's, reads as before. -/
theorem foreignWrites_read_out (s : State) (cs : List ForeignStore) (a : Nat)
    (h : (∀ c ∈ cs, c.covers a = false) ∨ deviceAt s.platform a = true) :
    Memory.read (foreignWrites s cs).mem a = Memory.read s.mem a := by
  induction cs generalizing s with
  | nil => rfl
  | cons c cs ih =>
    have rest : (∀ d ∈ cs, d.covers a = false) ∨ deviceAt (foreignWrite s c).platform a = true := by
      rw [foreignWrite_platform]
      exact h.imp_left fun uncovered => (List.forall_mem_cons.mp uncovered).2
    have first : deviceAt s.platform a = false → c.covers a = false := fun storage =>
      h.elim (fun uncovered => uncovered c List.mem_cons_self) (fun device => by simp [storage] at device)
    rw [foreignWrites_cons, ih _ rest, foreignWrite_read_out s c a fun _ => first]

/-- Storage holds a store's bytes where no later store covers them. -/
theorem foreignWrites_read_in (s : State) (before : List ForeignStore) (c : ForeignStore) (after : List ForeignStore)
    (k : Nat) (hc : c.arrives s.platform = true) (hk : k < c.bytes.length)
    (storage : deviceAt s.platform (c.addr + k) = false) (uncovered : ∀ d ∈ after, d.covers (c.addr + k) = false) :
    Memory.read (foreignWrites s (before ++ c :: after)).mem (c.addr + k) = c.bytes[k] := by
  rw [foreignWrites_append, foreignWrites_cons, foreignWrites_read_out _ after _ (.inl uncovered)]
  exact foreignWrite_read_in _ c k (by simpa using hc) hk (by simpa using storage)

/-- Each store that touches storage joins, on its own and newest first, those a fetch may miss; a store at a device
alone does not (R64; log 18). -/
theorem foreignWrites_unsynced (s : State) (cs : List ForeignStore) (h : ∀ c ∈ cs, c.arrives s.platform = true) :
    ∃ seen, (foreignWrites s cs).unsynced = seen ++ s.unsynced ∧
      seen.map (fun u => (u.addr, u.old.length)) =
        (cs.filter (fun c => touchesStorage s.platform c.addr c.bytes.length)).reverse.map
          (fun c => (c.addr, c.bytes.length)) := by
  induction cs generalizing s with
  | nil => exact ⟨[], rfl, rfl⟩
  | cons c cs ih =>
    obtain ⟨hc, hcs⟩ := List.forall_mem_cons.mp h
    obtain ⟨seen, joined, extents⟩ := ih (foreignWrite s c) (by simpa using hcs)
    rw [foreignWrite_platform] at extents
    rw [foreignWrites_cons, joined, foreignWrite_of_arrives s c hc]
    cases storage : touchesStorage s.platform c.addr c.bytes.length with
    | true =>
      exact ⟨seen ++ [⟨c.addr, Memory.readBytes s.mem c.addr c.bytes.length⟩], by simp [storage],
        by simp [storage, extents]⟩
    | false => exact ⟨seen, by simp [storage], by simp [storage, extents]⟩

/-! ## The environment, whichever way its choices fall -/

/-- What no choice of the environment and no store that arrives can change, and what moves on in every step. -/
theorem environmentWith_frame (clears : Bool) (ticks : DWord) (s : State) :
    let t := environmentWith clears ticks s
    SameRegisters s t ∧ t.pc = s.pc ∧ t.plv = s.plv ∧ t.lladdr = s.lladdr ∧ t.counterId = s.counterId ∧
    t.platform = s.platform ∧ t.trap = s.trap ∧ t.incoming = s.incoming.tail ∧ t.draws = s.draws + 1 ∧
    t.deviceAccesses = s.deviceAccesses ∧ t.stableCounter = s.stableCounter + ticks := by
  obtain ⟨hgr, hpc, hplv, hlladdr, -, hcounterId, -, htrap, hplatform, -, hdeviceAccesses⟩ :=
    foreignWrites_frame (s.incoming.headD []) s
  exact ⟨State.readGr_congr s _ hgr, hpc, hplv, hlladdr, hcounterId, hplatform, htrap, rfl, rfl, hdeviceAccesses, rfl⟩

/-- The environment's own clearing of LLbit comes on top of the clearing by stores (R186 items 1 and 2). -/
theorem environmentWith_llbit (clears : Bool) (ticks : DWord) (s : State) :
    (environmentWith clears ticks s).llbit = ((foreignWrites s (s.incoming.headD [])).llbit && !clears) := rfl

theorem environmentWith_mem (clears : Bool) (ticks : DWord) (s : State) :
    (environmentWith clears ticks s).mem = (foreignWrites s (s.incoming.headD [])).mem := rfl

theorem environmentWith_unsynced (clears : Bool) (ticks : DWord) (s : State) :
    (environmentWith clears ticks s).unsynced = (foreignWrites s (s.incoming.headD [])).unsynced := rfl

end Sys2Proof.Machine

section Settled

open Sys2Proof.Machine

/-- Settles O16: the frame holds of every list of stores, and each other field is read off the stores that arrive, by
induction on their list. -/
theorem environmentActsOnlyAsAllowed : Obligations.EnvironmentActsOnlyAsAllowed := by
  rintro s clears ticks t arriving rfl arriving_eq
  have arrives : ∀ c ∈ arriving, c.arrives s.platform = true := by simp [arriving_eq]
  have made : foreignWrites s (s.incoming.headD []) = foreignWrites s arriving := by
    rw [arriving_eq, foreignWrites_filter_arrives]
  obtain ⟨gr, pc, plv, lladdr, counterId, platform, trap, incoming, draws, deviceAccesses, stableCounter⟩ :=
    environmentWith_frame clears ticks s
  rw [environmentWith_llbit, environmentWith_mem, environmentWith_unsynced, made]
  refine ⟨gr, pc, plv, lladdr, counterId, platform, trap, incoming, draws, deviceAccesses, stableCounter,
    ?llbit, ?bytesKept, ?bytesStored, foreignWrites_unsynced s arriving arrives⟩
  case llbit =>
    rw [Bool.and_eq_true, Bool.not_eq_true', foreignWrites_llbit_iff s arriving arrives,
      and_right_comm, and_assoc]
  case bytesKept => exact foreignWrites_read_out s arriving
  case bytesStored =>
    rintro before c after rfl k hk storage uncovered
    exact foreignWrites_read_in s before c after k (arrives c (by simp)) hk storage uncovered

end Settled
end

/-! PROOFS. The obligations of 10_state.md: the register file, reset, the step, and what every instruction keeps of the
registers, the pc, the reservation and the system state. Most are read off `exec_effect`, one case for each shape of a next
state; that an instruction reads no register it does not name needs both runs at once and is said of each shared
operation first. -/

namespace Sys2Proof.Safety

open Sys2Proof.Machine

/-! ## States that differ at most in the registers -/

section SameButRegisters

variable {s u : State} (same : SameButRegisters s u)
include same

theorem SameButRegisters.pc : u.pc = s.pc := by rw [same]
theorem SameButRegisters.llbit : u.llbit = s.llbit := by rw [same]
theorem SameButRegisters.lladdr : u.lladdr = s.lladdr := by rw [same]
theorem SameButRegisters.platform : u.platform = s.platform := by rw [same]
theorem SameButRegisters.draws : u.draws = s.draws := by rw [same]
theorem SameButRegisters.stableCounter : u.stableCounter = s.stableCounter := by rw [same]
theorem SameButRegisters.counterId : u.counterId = s.counterId := by rw [same]
theorem SameButRegisters.readByte : u.readByte = s.readByte := by rw [same]; rfl

theorem SameButRegisters.setPc (p : Word) : SameButRegisters (s.setPc p) (u.setPc p) := by
  rw [same]; rfl

theorem SameButRegisters.advance : SameButRegisters s.advance u.advance := by
  rw [same]; rfl

theorem SameButRegisters.raise (e : Exception) : SameButRegisters (raise e s) (raise e u) := by
  rw [same]; rfl

theorem SameButRegisters.drawn : SameButRegisters s.drawn u.drawn := by
  rw [same]; rfl

theorem SameButRegisters.setReservation (bit : Bool) (a : Word) :
    SameButRegisters (s.setReservation bit a) (u.setReservation bit a) := by
  rw [same]; rfl

theorem SameButRegisters.loaded (a n : Nat) : SameButRegisters (s.loaded a n) (u.loaded a n) := by
  rw [same]; rfl

theorem SameButRegisters.stored (a : Nat) (bs : List Byte) : SameButRegisters (s.stored a bs) (u.stored a bs) := by
  rw [same]; rfl

theorem SameButRegisters.syncFetch :
    SameButRegisters { s with unsynced := [] } { u with unsynced := [] } := by
  rw [same]; rfl

theorem SameButRegisters.writeGr (rd : RegNum) (v : Word) : SameButRegisters (s.writeGr rd v) (u.writeGr rd v) := by
  rw [same]
  unfold State.writeGr
  split <;> rfl

end SameButRegisters

end Sys2Proof.Safety

namespace Sys2Proof.Machine

open Sys2Proof.Safety

/-! ## Where the pc goes -/

theorem aligned_add_iff (a b : Word) (h : Aligned b 4) : Aligned (a + b) 4 ↔ Aligned a 4 := by
  simp only [Aligned, BitVec.toNat_add] at *
  omega

/-- An address is a multiple of 4 exactly where its low two bits are 0. -/
theorem aligned_four_iff_setWidth (a : Word) : Aligned a 4 ↔ a.setWidth 2 = 0 := by
  rw [← BitVec.toNat_inj]
  simp [Aligned]

/-- An offset in words, as every transfer has one, is a multiple of 4 (R140). -/
theorem aligned_sext_append_zeros {n : Nat} (v : BitVec n) : Aligned (sext (v ++ 0#2)) 4 := by
  rw [aligned_four_iff_setWidth]
  apply BitVec.eq_of_getLsbD_eq
  intro i hi
  rw [sext, BitVec.getLsbD_setWidth, BitVec.getLsbD_signExtend, if_pos (by omega), BitVec.getLsbD_append, if_pos hi]
  simp

/-- A data access and a transfer are never made by the same instruction. -/
theorem transferTarget_eq_none_of_dataAccess (i : Instr) (s : State) (x : Word × Nat) (h : dataAccess s i = some x) :
    transferTarget s i = none := by
  cases i with
  | beq | bne | blt | bge | bltu | bgeu | b | bl | jirl => cases h
  | _ => rfl

/-- A trap leaves the pc and is no transfer; whatever else completes goes to its target, or on by 4 (R24, R25). -/
theorem exec_pc_cases (i : Instr) (s t : State) (h : exec i s = .next t) :
    (transferTarget s i = none ∧ ∃ e, t = raise e s) ∨
    (t.trap = s.trap ∧ t.pc = (transferTarget s i).getD (s.pc + 4)) := by
  cases exec_effect i s t h with
  | call e dest access store source => rcases source with ⟨c, rfl, -⟩ | ⟨c, rfl, -⟩ <;> exact .inl ⟨rfl, e, rfl⟩
  | misaligned a n access bad => exact .inl ⟨transferTarget_eq_none_of_dataAccess i s _ access, .ale a, rfl⟩
  | jump => exact .inr ⟨rfl, rfl⟩
  | link rd p dest access store target => simp [target]
  | sync hint eq => subst eq; exact .inr ⟨rfl, rfl⟩
  | linked rd rj x eq | stored rd rj x eq | notStored rd rj x eq => subst eq; simp [transferTarget]
  | write _ _ _ _ _ target | draw _ _ _ _ target | advance _ _ _ target | load _ _ _ _ _ _ _ target
  | store _ _ _ _ _ _ _ target => simp [target]

/-- The target of a transfer from an aligned pc is misaligned only where a JIRL takes it from a misaligned register
(R150). -/
theorem transferTarget_aligned_iff (i : Instr) (s : State) (p : Word) (h : transferTarget s i = some p)
    (hpc : Aligned s.pc 4) : Aligned p 4 ↔ ∀ rd rj o, i = .jirl rd rj o → Aligned (s.readGr rj) 4 := by
  have relative {n : Nat} (v : BitVec n) : Aligned (s.pc + sext (v ++ 0#2)) 4 :=
    (aligned_add_iff _ _ (aligned_sext_append_zeros v)).mpr hpc
  cases i with
  | jirl rd rj o =>
    cases h
    simpa [offset16] using aligned_add_iff (s.readGr rj) _ (aligned_sext_append_zeros o)
  | b o | bl o =>
    cases h
    simpa [offset26] using relative o
  | beq _ _ o | bne _ _ o | blt _ _ o | bge _ _ o | bltu _ _ o | bgeu _ _ o =>
    obtain ⟨-, ⟨⟩⟩ := Option.ite_none_right_eq_some.mp h
    simpa [offset16] using relative o
  | _ => cases h

/-- An instruction that transfers nowhere is no JIRL. -/
theorem ne_jirl_of_transferTarget (i : Instr) (s : State) (h : transferTarget s i = none) (rd rj : RegNum)
    (o : BitVec 16) : i ≠ .jirl rd rj o := by
  rintro rfl
  cases h

/-! ## What every instruction keeps -/

/-- No instruction writes the level, the counter, the Counter ID, the platform or the schedule (R20). -/
theorem exec_sameSystem (i : Instr) (s t : State) (h : exec i s = .next t) : SameSystem s t := by
  cases exec_effect i s t h <;> constructor <;> simp

/-- Only the destination changes (R22). -/
theorem exec_readGr_of_ne_destination (i : Instr) (s t : State) (h : exec i s = .next t) (r : RegNum)
    (hr : destination i ≠ some r) : t.readGr r = s.readGr r := by
  have other (u : State) (rd : RegNum) (v : Word) (dest : destination i = some rd) :
      (u.writeGr rd v).readGr r = u.readGr r := by
    have : r ≠ rd := by rintro rfl; exact hr dest
    rw [State.readGr_writeGr, if_neg this]
    split
    · next zero => subst zero; rfl
    · rfl
  cases exec_effect i s t h with
  | write rd v dest | draw rd dest | link rd p dest | load rd v a n dest => exact other _ _ _ dest
  | linked rd rj x eq | stored rd rj x eq | notStored rd rj x eq => exact other _ _ _ (by rw [eq]; rfl)
  | call | misaligned | jump | advance | sync | store => rfl

/-- All but LL.W and SC.W leave LLbit and LLaddr (R29). -/
theorem exec_sameReservation (i : Instr) (s t : State) (h : exec i s = .next t) (notLlw : ∀ rd rj x, i ≠ .llw rd rj x)
    (notScw : ∀ rd rj x, i ≠ .scw rd rj x) : SameReservation s t := by
  cases exec_effect i s t h with
  | linked rd rj x eq => exact absurd eq (notLlw rd rj x)
  | stored rd rj x eq | notStored rd rj x eq => exact absurd eq (notScw rd rj x)
  | _ => constructor <;> simp

/-! ## LLbit in LL.W and SC.W -/

/-- An LL.W that completes has recorded its address. -/
theorem execLlw_reservation (rd rj : RegNum) (x : BitVec 14) (s t : State) (h : execLlw rd rj x s = .next t)
    (completes : t.trap = none) : t.llbit = true ∧ t.lladdr = atomicAddress s rj x := by
  rcases execLlw_cases rd rj x s with ⟨-, e⟩ | ⟨-, -, -, e⟩ | ⟨-, r, e, -⟩ <;> rw [e] at h <;> cases h
  · cases completes
  · simp

/-- The register and the memory after an SC.W that completes, by the LLbit it saw. -/
theorem execScw_completed (rd rj : RegNum) (x : BitVec 14) (s t : State) (h : execScw rd rj x s = .next t)
    (completes : t.trap = none) :
    RegistersAfter s t rd (if s.llbit then 1 else 0) ∧
    t.mem = if s.llbit then (s.stored (atomicAddress s rj x).toNat (storeBytes 4 (s.readGr rd))).mem else s.mem := by
  rcases execScw_cases rd rj x s with ⟨-, e⟩ | ⟨-, seen, -, -, -, e⟩ | ⟨-, seen, e⟩ | ⟨-, -, -, e⟩ | ⟨-, -, -, r, e, -⟩ <;>
    rw [e] at h <;> cases h
  · cases completes
  · exact ⟨fun r => by simp [State.readGr_writeGr, seen], by simp [seen]⟩
  · exact ⟨fun r => by simp [State.readGr_writeGr, seen], by simp [seen]⟩

/-! ## What an instruction reads of the registers -/

section SameAnswer

variable {i : Instr} {s u : State} (same : SameButRegisters s u)
include same

theorem sameAnswer_raise (e : Exception) : SameAnswer i (.next (raise e s)) (.next (raise e u)) :=
  ⟨same.raise e, fun running => nomatch running⟩

/-- Where there is no destination, equal states outside the registers are the same answer. -/
theorem sameAnswer_of_no_destination (dest : destination i = none) : SameAnswer i (.next s) (.next u) :=
  ⟨same, fun _ r hr => by rw [dest] at hr; cases hr⟩

theorem sameAnswer_writeGr_setPc {rd : RegNum} (dest : destination i = some rd) (v p : Word) :
    SameAnswer i (.next ((s.writeGr rd v).setPc p)) (.next ((u.writeGr rd v).setPc p)) := by
  refine ⟨(same.writeGr rd v).setPc p, fun _ r hr => ?_⟩
  obtain rfl : rd = r := Option.some.inj (dest.symm.trans hr)
  simp [State.readGr_writeGr]

theorem sameAnswer_writeAndAdvance {rd : RegNum} (dest : destination i = some rd) {v v' : Word} (hv : v' = v) :
    SameAnswer i (writeAndAdvance rd v s) (writeAndAdvance rd v' u) := by
  subst hv
  have next := sameAnswer_writeGr_setPc same dest v' (s.pc + 4)
  rw [writeAndAdvance_eq, writeAndAdvance_eq, State.advance, State.advance, State.writeGr_pc, State.writeGr_pc, same.pc]
  exact next

theorem sameAnswer_divideTo {rd : RegNum} (dest : destination i = some rd) {d d' v v' : Word} {f f' : Bool}
    (hd : d' = d) (hv : v' = v) (hf : f' = f) : SameAnswer i (divideTo rd d v f s) (divideTo rd d' v' f' u) := by
  subst hd hv hf
  unfold divideTo
  split
  · exact sameAnswer_writeAndAdvance same.drawn dest (by rw [same.draws])
  · exact sameAnswer_writeAndAdvance same dest rfl

theorem sameAnswer_branchIf (dest : destination i = none) {c c' : Bool} (hc : c' = c) (o : BitVec 16) :
    SameAnswer i (branchIf c o s) (branchIf c' o u) := by
  subst hc
  refine sameAnswer_of_no_destination ?_ dest
  rw [same.pc]
  split
  · exact same.setPc _
  · exact same.advance

theorem sameAnswer_loadTo {rd : RegNum} (dest : destination i = some rd) {a a' : Word} (ha : a' = a) (n : Nat)
    (f : (Nat → Byte) → Nat → Word) : SameAnswer i (loadTo rd a n f s) (loadTo rd a' n f u) := by
  subst ha
  unfold loadTo
  rw [same.platform]
  split
  · exact sameAnswer_raise same _
  · split
    · exact rfl
    · exact sameAnswer_writeAndAdvance (same.loaded _ n) dest (by rw [same.readByte])

theorem sameAnswer_storeFrom (dest : destination i = none) {a a' v v' : Word} (ha : a' = a) (hv : v' = v) (n : Nat) :
    SameAnswer i (storeFrom a n v s) (storeFrom a' n v' u) := by
  subst ha hv
  unfold storeFrom
  rw [same.platform]
  split
  · exact sameAnswer_raise same _
  · split
    · exact rfl
    · exact sameAnswer_of_no_destination (same.stored _ _).advance dest

theorem sameAnswer_execLlw {rd rj : RegNum} {x : BitVec 14} (hj : u.readGr rj = s.readGr rj) :
    SameAnswer (.llw rd rj x) (execLlw rd rj x s) (execLlw rd rj x u) := by
  have address : atomicAddress u rj x = atomicAddress s rj x := congrArg (· + offset14 x) hj
  simp only [execLlw, address, same.platform]
  split
  · exact sameAnswer_raise same _
  · split
    · exact rfl
    · split
      · exact sameAnswer_writeAndAdvance ((same.loaded _ 4).setReservation true _) rfl (by rw [same.readByte])
      · exact rfl

theorem sameAnswer_finishScw {rd : RegNum} (dest : destination i = some rd) (seen : Bool) :
    SameAnswer i (finishScw rd seen s) (finishScw rd seen u) := by
  unfold finishScw
  rw [same.draws, same.lladdr]
  exact sameAnswer_writeAndAdvance (same.drawn.setReservation _ _) dest rfl

theorem sameAnswer_execScw {rd rj : RegNum} {x : BitVec 14} (hd : u.readGr rd = s.readGr rd)
    (hj : u.readGr rj = s.readGr rj) : SameAnswer (.scw rd rj x) (execScw rd rj x s) (execScw rd rj x u) := by
  have address : atomicAddress u rj x = atomicAddress s rj x := congrArg (· + offset14 x) hj
  simp only [execScw, address, hd, same.platform, same.llbit, same.lladdr]
  split
  · exact sameAnswer_raise same _
  · split
    · split
      · split
        · exact rfl
        · split
          · exact sameAnswer_finishScw (same.stored _ _) rfl true
          · exact rfl
      · exact rfl
    · exact sameAnswer_finishScw same rfl false

end SameAnswer

/-- Two runs of an instruction from states that agree outside the registers and on its sources (R22). -/
theorem exec_sameAnswer (i : Instr) (s u : State) (same : SameButRegisters s u)
    (named : ∀ r ∈ sources i, u.readGr r = s.readGr r) : SameAnswer i (exec i s) (exec i u) := by
  cases i with
  | beq rj rd o | bne rj rd o | blt rj rd o | bge rj rd o | bltu rj rd o | bgeu rj rd o =>
    have hj := named rj (by simp [sources])
    have hd := named rd (by simp [sources])
    exact sameAnswer_branchIf same rfl (by rw [hj, hd]) o
  | b o => exact sameAnswer_of_no_destination (by rw [same.pc]; exact same.setPc _) rfl
  | bl o =>
    simp only [exec, execBl, same.pc]
    exact sameAnswer_writeGr_setPc same rfl _ _
  | jirl rd rj o =>
    have hj := named rj (by simp [sources])
    simp only [exec, execJirl, same.pc, hj]
    exact sameAnswer_writeGr_setPc same rfl _ _
  | divw rd rj rk | modw rd rj rk | divwu rd rj rk | modwu rd rj rk =>
    have hj := named rj (by simp [sources])
    have hk := named rk (by simp [sources])
    exact sameAnswer_divideTo same rfl hk (by rw [hj, hk]) (by simp only [hj, hk])
  | ldb rd rj x | ldh rd rj x | ldw rd rj x | ldbu rd rj x | ldhu rd rj x =>
    have hj := named rj (by simp [sources])
    simp only [exec, execLdb, execLdh, execLdw, execLdbu, execLdhu]
    exact sameAnswer_loadTo same rfl (congrArg (· + sext x) hj) _ _
  | stb rd rj x | sth rd rj x | stw rd rj x =>
    have hj := named rj (by simp [sources])
    have hd := named rd (by simp [sources])
    exact sameAnswer_storeFrom same rfl (congrArg (· + sext x) hj) hd _
  | llw rd rj x => exact sameAnswer_execLlw same (named rj (by simp [sources]))
  | scw rd rj x => exact sameAnswer_execScw same (named rd (by simp [sources])) (named rj (by simp [sources]))
  | preld | dbar => exact sameAnswer_of_no_destination same.advance rfl
  | ibar => exact sameAnswer_of_no_destination same.syncFetch.advance rfl
  | syscall | brk => exact sameAnswer_raise same _
  | rdcntvlw rd | rdcntvhw rd => exact sameAnswer_writeAndAdvance same rfl (by rw [same.stableCounter])
  | rdcntid rj => exact sameAnswer_writeAndAdvance same rfl same.counterId
  | lu12iw rd x => exact sameAnswer_writeAndAdvance same rfl rfl
  | pcaddu12i rd x => exact sameAnswer_writeAndAdvance same rfl (by rw [same.pc])
  | addw rd rj rk | subw rd rj rk | slt rd rj rk | sltu rd rj rk | and rd rj rk | or rd rj rk | nor rd rj rk
  | xor rd rj rk | mulw rd rj rk | mulhw rd rj rk | mulhwu rd rj rk | sllw rd rj rk | srlw rd rj rk | sraw rd rj rk =>
    have hj := named rj (by simp [sources])
    have hk := named rk (by simp [sources])
    exact sameAnswer_writeAndAdvance same rfl (by rw [hj, hk])
  | addiw rd rj _ | slti rd rj _ | sltui rd rj _ | andi rd rj _ | ori rd rj _ | xori rd rj _ | slliw rd rj _
  | srliw rd rj _ | sraiw rd rj _ =>
    have hj := named rj (by simp [sources])
    exact sameAnswer_writeAndAdvance same rfl (by rw [hj])

/-! ## Reset -/

/-- The one region at reset covers the source's range and no more (R41; log 8). -/
theorem regionAt_default (a : Nat) :
    regionAt Config.defaultPlatform a = if a ≤ 0x7FFFFFFF then some ⟨0, 0x80000000, 1, .storage⟩ else none := by
  simp only [regionAt, Config.defaultPlatform, BitVec.reduceToNat]
  split
  · next h => simp [h, regionCovers, show a < 2147483648 by omega]
  · next h => simp [h]

theorem byteRefusal_default_iff (a : Nat) (kind : AccessKind) :
    byteRefusal Config.defaultPlatform kind a = none ↔ a ≤ 0x7FFFFFFF := by
  rw [byteRefusal, regionAt_default]
  split_ifs with h <;> simp [h, matOfField]

theorem byteCached_default_iff (a : Nat) : byteCached Config.defaultPlatform a = true ↔ a ≤ 0x7FFFFFFF := by
  rw [byteCached, regionAt_default]
  split_ifs with h <;> simp [h, matOfField]

/-- Every register holds the model's reset value, which is 0, as x[0] does (log 2). -/
theorem readGr_reset (r : RegNum) : State.reset.readGr r = 0 := by
  have : r.toNat - 1 < 31 := by omega
  simp [State.readGr, State.reset, Config.resetGr, Vector.getD, this]

/-! ## The step where a word is fetched -/

/-- The step of a run that goes on, at an aligned pc, where the word fetched is an instruction (R26). -/
theorem step_eq_exec (s : State) (w : Word) (i : Instr) (running : s.trap = none) (admitted : Configured s.platform)
    (aligned : Aligned s.pc 4) (fetched : fetchWord (environment s) = .ok w) (decoded : decodeWord w = .ok i) :
    step s = exec i (environment s) := by
  have pc : pcMisaligned (environment s) = false := by simpa [pcMisaligned, misaligned_eq_false] using aligned
  simp [step, running, runStep, (platformRefusal_eq_none _).mpr admitted, fetchAndExec, pc, fetched, decodeAndExec,
    decoded]

/-- What a fetch may still miss after the environment is what it might have missed before, or a store that came now, with
the extent of that store. -/
theorem mem_environment_unsynced (s : State) (u : UnsyncedStore) (h : u ∈ (environment s).unsynced) :
    u ∈ s.unsynced ∨ ∃ c ∈ s.incoming.headD [], u.addr = c.addr ∧ u.old.length = c.bytes.length := by
  rw [environment_unsynced, ← foreignWrites_filter_arrives] at h
  obtain ⟨seen, joined, extents⟩ := foreignWrites_unsynced s
    ((s.incoming.headD []).filter (fun c => c.arrives s.platform)) (by simp)
  rw [joined, List.mem_append] at h
  refine h.symm.imp_right fun hu => ?_
  have hu : (u.addr, u.old.length) ∈ seen.map (fun u => (u.addr, u.old.length)) := List.mem_map.mpr ⟨u, hu, rfl⟩
  rw [extents, List.mem_map] at hu
  obtain ⟨c, hc, extent⟩ := hu
  obtain ⟨addr, length⟩ := Prod.mk.inj extent
  exact ⟨c, List.mem_of_mem_filter (List.mem_of_mem_filter (List.mem_reverse.mp hc)), addr.symm, length.symm⟩

theorem UnsyncedStore.oldByte_eq_none (u : UnsyncedStore) (a : Nat) :
    u.oldByte a = none ↔ a < u.addr ∨ u.addr + u.old.length ≤ a := by
  unfold UnsyncedStore.oldByte
  split
  · simp; omega
  · simp; omega

/-- A synchronised byte that nothing arriving covers stays synchronised and stays what it is, so that the fetch after the
environment sees it (R64). -/
theorem fetchByte_environment (s : State) (a : Nat) (storage : deviceAt s.platform a = false) (synced : FetchSynced s a)
    (quiet : ∀ c ∈ s.incoming.headD [], c.covers a = false) :
    fetchByte (environment s) a = Memory.read s.mem a := by
  rw [fetchByte_synced _ _ (by simpa using storage), environment_mem, foreignWrites_read_out _ _ _ (.inl quiet)]
  intro u hu
  rcases mem_environment_unsynced s u hu with hu | ⟨c, hc, addr, length⟩
  · exact synced u hu
  · rw [UnsyncedStore.oldByte_eq_none, addr, length]
    exact (c.covers_eq_false a).mp (quiet c hc)

/-! ## A word placed where the pc points -/

theorem wordBytes_get (w : Word) (k : Nat) (hk : k < (wordBytes w).length) :
    (wordBytes w)[k] = w.extractLsb' (8 * k) 8 := by
  match k, hk with
  | 0, _ | 1, _ | 2, _ | 3, _ => rfl

/-- What has no byte in the word at the pc ends before it or begins behind it. -/
theorem touchesWordAt_eq_false (pc : Word) (a n : Nat) :
    touchesWordAt pc a n = false ↔ pc.toNat + 4 ≤ a ∨ a + n ≤ pc.toNat := by
  simp [touchesWordAt]; omega

theorem mem_headD_withoutWritesAt (pc : Word) (l : List (List ForeignStore)) (c : ForeignStore)
    (h : c ∈ (withoutWritesAt pc l).headD []) : touchesWordAt pc c.addr c.bytes.length = false := by
  cases l with
  | nil => cases h
  | cons now later => simpa using (List.mem_filter.mp h).2

section WithFetchWord

variable (s : State) (w : Word) (k : Nat) (hk : k < 4)
include hk

/-- Memory holds the bytes of the word. -/
theorem withFetchWord_read :
    Memory.read (s.withFetchWord 32 w.toNat).mem (s.pc.toNat + k) = w.extractLsb' (8 * k) 8 := by
  have word : BitVec.ofNat 32 (w.toNat % 2 ^ 32) = w := by rw [Nat.mod_eq_of_lt w.isLt]; simp
  have hk : k < (wordBytes w).length := hk
  show Memory.read (Memory.writeBytes s.mem s.pc.toNat (wordBytes (BitVec.ofNat 32 (w.toNat % 2 ^ 32)))) _ = _
  rw [word, Memory.read_writeBytes_in _ _ _ _ hk, wordBytes_get]

/-- No unsynchronised store is left over the word. -/
theorem withFetchWord_synced (bits : Nat) : FetchSynced (s.withFetchWord bits w.toNat) (s.pc.toNat + k) := by
  intro u hu
  have untouched : touchesWordAt s.pc u.addr u.old.length = false := by simpa using (List.mem_filter.mp hu).2
  rw [touchesWordAt_eq_false] at untouched
  rw [UnsyncedStore.oldByte_eq_none]
  omega

/-- No store that arrives before the next step writes the word. -/
theorem withFetchWord_quiet (bits : Nat) (c : ForeignStore)
    (hc : c ∈ (s.withFetchWord bits w.toNat).incoming.headD []) : c.covers (s.pc.toNat + k) = false := by
  have untouched := mem_headD_withoutWritesAt s.pc s.incoming c hc
  rw [touchesWordAt_eq_false] at untouched
  rw [ForeignStore.covers_eq_false]
  omega

end WithFetchWord

/-- The fetch of the next step reads the word placed, whatever the environment does before it (R45). -/
theorem fetchWord_withFetchWord (s : State) (w : Word) (mapped : Accessible s.platform .read s.pc.toNat 4)
    (storage : InStorage s.platform s.pc.toNat 4) :
    fetchWord (environment (s.withFetchWord 32 w.toNat)) = .ok w := by
  have byte (k : Nat) (hk : k < 4) :
      fetchByte (environment (s.withFetchWord 32 w.toNat)) (s.pc.toNat + k) = w.extractLsb' (8 * k) 8 := by
    rw [fetchByte_environment (s.withFetchWord 32 w.toNat) _ (storage k hk) (withFetchWord_synced s w k hk 32)
      (withFetchWord_quiet s w k hk 32), withFetchWord_read s w k hk]
  have refusal : accessRefusal (s.withFetchWord 32 w.toNat).platform .read s.pc.toNat 4 = none :=
    (accessRefusal_eq_none _ _ _ _).mpr mapped
  have pc : (s.withFetchWord 32 w.toNat).pc = s.pc := rfl
  simp only [fetchWord, environment_pc, environment_platform, pc, refusal, byte 1 (by omega), byte 2 (by omega),
    byte 3 (by omega), show fetchByte _ s.pc.toNat = _ from byte 0 (by omega)]
  exact congrArg Except.ok (bytes_of_word w)

end Sys2Proof.Machine

section Settled

open Sys2Proof Sys2Proof.Machine Sys2Proof.Safety

/-- Settles O10: the word's bytes are in memory, and nothing unsynchronised or arriving hides one of them. -/
theorem loadedWordRunsNext : Obligations.LoadedWordRunsNext := by
  intro s w i admitted aligned mapped storage decoded
  exact step_eq_exec _ w i rfl admitted aligned (fetchWord_withFetchWord s w mapped storage) decoded

/-- Settles O12: a trap and the advance keep the alignment, and of the transfers only JIRL can lose it. -/
theorem onlyJirlMisalignsPc : Obligations.OnlyJirlMisalignsPc := by
  intro i s t h hpc
  rcases exec_pc_cases i s t h with ⟨target, e, rfl⟩ | ⟨-, pc⟩
  · simp [hpc, ne_jirl_of_transferTarget i s target]
  · cases target : transferTarget s i with
    | none =>
      have next : Aligned t.pc 4 := by
        rw [pc, target]
        exact (aligned_add_iff s.pc 4 (by simp [Aligned])).mpr hpc
      simp [next, ne_jirl_of_transferTarget i s target]
    | some p => simpa [pc, target] using transferTarget_aligned_iff i s p target hpc

/-- Settles O20: the frame of the instructions, and a step is the environment's, a trap's or an instruction's. -/
theorem runConstantsAreKept : Obligations.RunConstantsAreKept := by
  refine ⟨exec_sameSystem, fun s t h => ?_⟩
  obtain ⟨-, -, ⟨-, rfl⟩ | ⟨w, -, -, ⟨i, -, hexec⟩ | ⟨-, -, rfl⟩⟩⟩ := step_next_cases s t h
  · simp
  · obtain ⟨plv, -, counterId, -, platform⟩ := exec_sameSystem i _ t hexec
    simp [plv, counterId, platform]
  · simp

/-- Settles O23: only the destination is written, and r0 reads 0 in every state. -/
theorem unnamedRegistersAreKept : Obligations.UnnamedRegistersAreKept := by
  rintro i s t r h (other | rfl)
  · exact exec_readGr_of_ne_destination i s t h r other
  · rfl

/-- Settles O24: each shared operation gives the same answer on both states once its operands are equal, and the
operands are read from the sources. -/
theorem unnamedRegistersAreNotRead : Obligations.UnnamedRegistersAreNotRead := exec_sameAnswer

/-- Settles O25: the two cases of `exec_pc_cases` are told apart by the trap record. -/
theorem pcMovesByTransferOrFour : Obligations.PcMovesByTransferOrFour := by
  intro i s t running h
  rcases exec_pc_cases i s t h with ⟨-, e, rfl⟩ | ⟨trap, pc⟩
  · simp
  · simp [trap, running, pc]

/-- Settles O27: of the shapes of a next state only those of LL.W and SC.W touch the reservation, and SC.W's keep
LLaddr. -/
theorem reservationChangesByLlAndScAlone : Obligations.ReservationChangesByLlAndScAlone := by
  refine fun i s t h => ⟨exec_sameReservation i s t h, ?_⟩
  rintro rd rj x rfl
  cases exec_effect _ s t h with
  | linked _ _ _ eq => cases eq
  | _ => simp

/-- Settles O53: of the cases of each, the one that traps is excluded and those that are refused answer no state. -/
theorem storeConditionalTestsLLbit : Obligations.StoreConditionalTestsLLbit := by
  intro s t rd rj si14 completes
  refine ⟨fun h => execLlw_reservation rd rj si14 s t h completes, fun h => ?_⟩
  obtain ⟨registers, mem⟩ := execScw_completed rd rj si14 s t h completes
  refine ⟨fun k hk storage => ?_, fun hrd => by rw [registers rd, if_neg hrd, if_pos rfl]⟩
  rw [mem]
  split
  · exact (stored_memoryAfter s _ 4 _).stored k hk storage
  · rfl

/-- Settles O6: the read after a write. -/
theorem registerFileReadsBack : Obligations.RegisterFileReadsBack :=
  fun s r v => ⟨State.readGr_zero s, State.writeGr_zero s v, State.readGr_writeGr s r v⟩

/-- Settles O8: the fields are the values of `State.reset`; the registers and the map are read from them. -/
theorem resetValuesOfModel : Obligations.ResetValuesOfModel :=
  ⟨readGr_reset, rfl, rfl, rfl, rfl, rfl, rfl, fun _ => rfl, rfl, rfl, byteRefusal_default_iff, byteCached_default_iff,
    rfl, rfl, rfl, rfl, rfl⟩

/-- Settles O9: no earlier case of the step applies, and the environment leaves the pc and the registers. -/
theorem stepRunsDecodedInstruction : Obligations.StepRunsDecodedInstruction :=
  fun s w i running admitted aligned fetched decoded =>
    ⟨step_eq_exec s w i running admitted aligned fetched decoded, environment_pc s, readGr_environment s⟩

/-- Settles O17: nothing is listed in memory, nothing can be missed by a fetch, LLaddr is 0 and no trap is recorded. -/
theorem invariantHoldsAtReset : Obligations.InvariantHoldsAtReset where
  canonical := State.reset_memory_wf
  inRange := by simp [State.reset]
  unsyncedInRange := by simp [State.reset]
  reservationAligned := by simp [State.reset, Aligned]
  trapAtPc := by simp [State.reset]

end Settled

/-! PROOFS. The obligations of 20_memory.md. That every step keeps the invariant and that memory changes by stores alone
are read off `exec_effect`; what a data access meets first, its alignment and then the map, is said once for each of the
four shapes of `exec_dataAccess_cases`; what a load or a fetch finds of a store is followed byte by byte. -/

namespace Sys2Proof.Safety

open Sys2Proof.Machine

/-! ## The invariant -/

section Inv

variable {s : State} (inv : Inv s)
include inv

/-- What the invariant speaks of, where memory and the platform stay and no store is added that a fetch may miss. -/
theorem Inv.of_same_mem {t : State} (mem : t.mem = s.mem) (platform : t.platform = s.platform)
    (unsynced : ∀ u ∈ t.unsynced, u ∈ s.unsynced) (aligned : Aligned t.lladdr 4)
    (trapAtPc : ∀ r, t.trap = some r → r.epc = t.pc) : Inv t where
  canonical := mem ▸ inv.canonical
  inRange := by rw [mem, platform]; exact inv.inRange
  unsyncedInRange u hu := by rw [platform]; exact inv.unsyncedInRange u (unsynced u hu)
  reservationAligned := aligned
  trapAtPc := trapAtPc

/-- A trap record is made with the pc at which it is made (R230). -/
theorem Inv.raise (e : Exception) : Inv (raise e s) :=
  inv.of_same_mem rfl rfl (fun _ hu => hu) inv.reservationAligned (by simp)

/-- A store that the map lets through ends at ADDR_MAX at the latest (R41). -/
theorem Inv.store (a : Nat) (bs : List Byte) (pos : 0 < bs.length)
    (mapped : Accessible s.platform .write a bs.length) : Inv (s.store a bs) := by
  have ends : a + bs.length ≤ s.platform.addrMax.toNat + 1 := Accessible_end_le _ _ _ _ mapped pos
  refine ⟨Memory.wf_writeStorage _ _ _ _ inv.canonical, fun c hc => ?_, fun u hu => ?_, inv.reservationAligned,
    inv.trapAtPc⟩
  · rcases Memory.mem_writeStorage _ _ _ _ _ hc with ⟨-, written⟩ | before
    · rw [State.store_platform]; omega
    · exact inv.inRange c before
  · rcases mem_store_unsynced s a bs u hu with rfl | before
    · exact ⟨List.ne_nil_of_length_pos (by simpa using pos), by simpa using ends⟩
    · exact inv.unsyncedInRange u before

theorem Inv.foreignWrite (c : ForeignStore) : Inv (foreignWrite s c) := by
  rcases foreignWrite_cases s c with ⟨arrives, made⟩ | ⟨-, unchanged⟩
  · obtain ⟨access, mapped⟩ := (c.arrives_iff _).mp arrives
    have pos : 0 < c.bytes.length := by have := c.isAccess_iff.mp access; omega
    rw [made]
    exact (inv.store c.addr c.bytes pos mapped).of_same_mem rfl rfl (fun _ hu => hu) inv.reservationAligned inv.trapAtPc
  · rwa [unchanged]

theorem Inv.foreignWrites (cs : List ForeignStore) : Inv (foreignWrites s cs) := by
  induction cs generalizing s with
  | nil => exact inv
  | cons c cs ih => exact ih (inv.foreignWrite c)

theorem Inv.environment : Inv (environment s) :=
  (inv.foreignWrites _).of_same_mem rfl rfl (fun _ hu => hu) (by simpa using inv.reservationAligned)
    (by simpa using inv.trapAtPc)

/-- An instruction of a run that goes on keeps the invariant: it adds to memory only by a store the map lets through,
records only an aligned address and traps only at its pc. -/
theorem Inv.exec {i : Instr} {t : State} (running : s.trap = none) (h : exec i s = .next t) : Inv t := by
  cases exec_effect i s t h with
  | call e => exact inv.raise e
  | misaligned a => exact inv.raise (.ale a)
  | sync => exact inv.of_same_mem rfl rfl (by simp) inv.reservationAligned (by simp [running])
  | linked rd rj x eq good => exact inv.of_same_mem (by simp) (by simp) (by simp) (by simpa using good) (by simp [running])
  | store a n v pos dest access isStore target good mapped =>
    exact (inv.store a.toNat (storeBytes n v) (by simpa using pos) (by simpa using mapped)).of_same_mem rfl rfl
      (fun _ hu => hu) inv.reservationAligned (by simp [running])
  | stored rd rj x eq good mapped =>
    exact (inv.store (atomicAddress s rj x).toNat (storeBytes 4 (s.readGr rd)) (by simp) (by simpa using mapped)).of_same_mem
      (by simp) (by simp) (by simp) (by simpa using inv.reservationAligned) (by simp [running])
  | write | draw | jump | link | advance | load | notStored =>
    exact inv.of_same_mem (by simp) (by simp) (by simp) (by simpa using inv.reservationAligned) (by simp [running])

end Inv

end Sys2Proof.Safety

namespace Sys2Proof.Machine

open Sys2Proof.Safety

/-! ## What an instruction changes of memory and of devices -/

/-- An instruction leaves a byte that no store of its own writes (R43). -/
theorem exec_read_of_outside (i : Instr) (s t : State) (h : exec i s = .next t) (b : Nat)
    (outside : ∀ a n, isStore i = true → dataAccess s i = some (a, n) → b < a.toNat ∨ a.toNat + n ≤ b) :
    Memory.read t.mem b = Memory.read s.mem b := by
  cases exec_effect i s t h with
  | store a n v pos dest access isStore =>
    exact (stored_memoryAfter s a.toNat n v).others b ((outside a n isStore access).imp_right .inl)
  | stored rd rj x eq =>
    subst eq
    rw [State.advance_mem, State.writeGr_mem]
    exact (stored_memoryAfter s _ 4 _).others b ((outside _ 4 rfl rfl).imp_right .inl)
  | _ => simp

/-- A load records its access exactly where it touches a device (R50). -/
theorem loaded_deviceAccesses_cases (s : State) (a n : Nat) :
    (s.loaded a n).deviceAccesses = s.deviceAccesses ∨
    touchesDevice s.platform a n = true ∧ (s.loaded a n).deviceAccesses = .load a n :: s.deviceAccesses := by
  rw [State.loaded_deviceAccesses]
  split
  · next touches => exact .inr ⟨touches, rfl⟩
  · exact .inl rfl

/-- The core's own store records its access exactly where it touches a device (R50). -/
theorem stored_deviceAccesses_cases (s : State) (a n : Nat) (v : Word) :
    (s.stored a (storeBytes n v)).deviceAccesses = s.deviceAccesses ∨
    touchesDevice s.platform a n = true ∧
      (s.stored a (storeBytes n v)).deviceAccesses = .store a (storeBytes n v) :: s.deviceAccesses := by
  rw [State.stored_deviceAccesses, storeBytes_length]
  split
  · next touches => exact .inr ⟨touches, rfl⟩
  · exact .inl rfl

/-- What an instruction adds to the accesses at devices is its own data access, once (R40, R50). -/
theorem exec_deviceAccesses_cases (i : Instr) (s t : State) (h : exec i s = .next t) :
    t.deviceAccesses = s.deviceAccesses ∨
    ∃ a n, dataAccess s i = some (a, n) ∧ touchesDevice s.platform a.toNat n = true ∧
      if isStore i then ∃ bytes, bytes.length = n ∧ t.deviceAccesses = .store a.toNat bytes :: s.deviceAccesses
      else t.deviceAccesses = .load a.toNat n :: s.deviceAccesses := by
  cases exec_effect i s t h with
  | load rd v a n dest access notStore =>
    rw [State.advance_deviceAccesses, State.writeGr_deviceAccesses]
    refine (loaded_deviceAccesses_cases s a.toNat n).imp_right fun ⟨touches, made⟩ => ⟨a, n, access, touches, ?_⟩
    simpa [notStore] using made
  | store a n v pos dest access store =>
    rw [State.advance_deviceAccesses]
    refine (stored_deviceAccesses_cases s a.toNat n v).imp_right fun ⟨touches, made⟩ => ⟨a, n, access, touches, ?_⟩
    rw [if_pos store]
    exact ⟨_, storeBytes_length n v, made⟩
  | linked rd rj x eq =>
    subst eq
    rw [State.advance_deviceAccesses, State.writeGr_deviceAccesses, State.setReservation_deviceAccesses]
    exact (loaded_deviceAccesses_cases s (atomicAddress s rj x).toNat 4).imp_right fun ⟨touches, made⟩ =>
      ⟨_, 4, rfl, touches, made⟩
  | stored rd rj x eq =>
    subst eq
    rw [State.advance_deviceAccesses, State.writeGr_deviceAccesses, State.setReservation_deviceAccesses,
      State.drawn_deviceAccesses]
    exact (stored_deviceAccesses_cases s (atomicAddress s rj x).toNat 4 (s.readGr rd)).imp_right fun ⟨touches, made⟩ =>
      ⟨_, 4, rfl, touches, _, storeBytes_length 4 _, made⟩
  | _ => exact .inl (by simp)

/-! ## What a data access meets first -/

/-- An instruction that makes a data access is a load, an ordinary store, LL.W or SC.W. -/
theorem exec_dataAccess_cases (i : Instr) (s : State) (a : Word) (n : Nat) (h : dataAccess s i = some (a, n)) :
    (accessKind i = .read ∧ ∃ rd f, exec i s = loadTo rd a n f s) ∨
    (accessKind i = .write ∧ ∃ v, exec i s = storeFrom a n v s) ∨
    (∃ rd rj x, i = .llw rd rj x ∧ a = atomicAddress s rj x ∧ n = 4) ∨
    ∃ rd rj x, i = .scw rd rj x ∧ a = atomicAddress s rj x ∧ n = 4 := by
  cases i with
  | ldb | ldh | ldw | ldbu | ldhu =>
    cases h
    simp only [exec, execLdb, execLdh, execLdw, execLdbu, execLdhu]
    exact .inl ⟨rfl, _, _, rfl⟩
  | stb | sth | stw => cases h; exact .inr (.inl ⟨rfl, _, rfl⟩)
  | llw rd rj x => cases h; exact .inr (.inr (.inl ⟨rd, rj, x, rfl, rfl, rfl⟩))
  | scw rd rj x => cases h; exact .inr (.inr (.inr ⟨rd, rj, x, rfl, rfl, rfl⟩))
  | _ => cases h

/-- Alignment comes first, whatever the map and LLbit are (R53, R228). -/
theorem exec_of_misaligned (i : Instr) (s : State) (a : Word) (n : Nat) (h : dataAccess s i = some (a, n))
    (bad : ¬Aligned a n) : exec i s = .next (raise (.ale a) s) := by
  have bad := (misaligned_eq_true a n).mpr bad
  rcases exec_dataAccess_cases i s a n h with ⟨-, rd, f, e⟩ | ⟨-, v, e⟩ | ⟨rd, rj, x, rfl, rfl, rfl⟩ |
    ⟨rd, rj, x, rfl, rfl, rfl⟩
  · rw [e, loadTo, if_pos bad]
  · rw [e, storeFrom, if_pos bad]
  · exact if_pos bad
  · exact if_pos bad

/-- Then comes the map, but that an SC.W looks at LLbit and LLaddr before it (R182, R183, R229). -/
theorem exec_of_accessRefusal (i : Instr) (s : State) (a : Word) (n : Nat) (h : dataAccess s i = some (a, n))
    (good : Aligned a n) (paired : ∀ rd rj x, i = .scw rd rj x → s.llbit = true ∧ a = s.lladdr) (r : Refusal)
    (refuses : accessRefusal s.platform (accessKind i) a.toNat n = some r) : exec i s = .refused r := by
  have good := (misaligned_eq_false a n).mpr good
  rcases exec_dataAccess_cases i s a n h with ⟨kind, rd, f, e⟩ | ⟨kind, v, e⟩ | ⟨rd, rj, x, rfl, rfl, rfl⟩ |
    ⟨rd, rj, x, rfl, rfl, rfl⟩
  · rw [kind] at refuses
    simp [e, loadTo, good, refuses]
  · rw [kind] at refuses
    simp [e, storeFrom, good, refuses]
  · have refuses : accessRefusal s.platform .read (atomicAddress s rj x).toNat 4 = some r := refuses
    simp [exec, execLlw, good, refuses]
  · obtain ⟨seen, same⟩ := paired rd rj x rfl
    have refuses : accessRefusal s.platform .write (atomicAddress s rj x).toNat 4 = some r := refuses
    rw [same] at good refuses
    simp [exec, execScw, good, seen, same, refuses]

theorem dataAccess_size_pos (i : Instr) (s : State) (a : Word) (n : Nat) (h : dataAccess s i = some (a, n)) :
    0 < n := by
  cases i <;> cases h <;> decide

/-- Where the first byte of an access is refused, that is why the access is. -/
theorem accessRefusal_of_first (p : Config.Platform) (kind : AccessKind) (a n : Nat) (r : Refusal) (pos : 0 < n)
    (first : byteRefusal p kind a = some r) : accessRefusal p kind a n = some r := by
  obtain ⟨n, rfl⟩ := Nat.exists_eq_add_of_lt pos
  simp [accessRefusal, List.range_succ_eq_map, first]

/-- A byte above ADDR_MAX is refused as unmapped, whatever the regions are (R41). -/
theorem byteRefusal_of_addrMax_lt (p : Config.Platform) (kind : AccessKind) (a : Nat) (above : p.addrMax.toNat < a) :
    byteRefusal p kind a = some (.unmapped a) := by
  simp [byteRefusal, regionAt, Nat.not_le.mpr above]

/-! ## The traps of an instruction -/

/-- An instruction that traps is SYSCALL, BREAK or a misaligned data access. -/
theorem exec_trap_cases (i : Instr) (s t : State) (r : Trap) (running : s.trap = none) (h : exec i s = .next t)
    (traps : t.trap = some r) :
    (∃ c, r.exception = .sys c) ∨ (∃ c, r.exception = .brk c) ∨
    ∃ a n, dataAccess s i = some (a, n) ∧ ¬Aligned a n ∧ r.exception = .ale a := by
  cases exec_effect i s t h with
  | call e dest access store source =>
    cases traps
    rcases source with ⟨c, -, rfl⟩ | ⟨c, -, rfl⟩
    · exact .inl ⟨c, rfl⟩
    · exact .inr (.inl ⟨c, rfl⟩)
  | misaligned a n access bad =>
    cases traps
    exact .inr (.inr ⟨a, n, access, bad, rfl⟩)
  | _ => simp [running] at traps

/-! ## Steps that answer before an instruction runs -/

/-- The step at a misaligned pc takes ADEF before anything is fetched (R27, R52). -/
theorem step_of_misaligned_pc (s : State) (running : s.trap = none) (admitted : Configured s.platform)
    (bad : ¬Aligned s.pc 4) : step s = .next (raise (.adef s.pc) (environment s)) := by
  have bad : pcMisaligned (environment s) = true := by simpa [pcMisaligned, misaligned_eq_true] using bad
  simp [step, running, runStep, (platformRefusal_eq_none _).mpr admitted, fetchAndExec, bad]

/-- The step whose fetch the map refuses is refused for that reason (R229). -/
theorem step_of_fetch_refused (s : State) (running : s.trap = none) (admitted : Configured s.platform)
    (aligned : Aligned s.pc 4) (r : Refusal) (refuses : accessRefusal s.platform .read s.pc.toNat 4 = some r) :
    step s = .refused r := by
  have pc : pcMisaligned (environment s) = false := by simpa [pcMisaligned, misaligned_eq_false] using aligned
  simp [step, running, runStep, (platformRefusal_eq_none _).mpr admitted, fetchAndExec, pc, fetchWord, refuses]

/-- A platform the model does not admit is refused for one of its regions, by every step (R47, R269). -/
theorem step_of_not_configured (s : State) (running : s.trap = none) (bad : ¬Configured s.platform) :
    (∃ r ∈ s.platform.regions, matOfField r.mat = none ∧ step s = .refused (.reservedConfiguration r.mat)) ∨
    ((∀ r ∈ s.platform.regions, matOfField r.mat ≠ none) ∧
      ∃ r ∈ s.platform.regions, Exposed r ∧ step s = .refused (.exposedDevice r.base)) := by
  obtain ⟨x, hx⟩ := Option.ne_none_iff_exists'.mp (mt (platformRefusal_eq_none _).mp bad)
  have refused : step s = .refused x := by simp [step, running, runStep, hx]
  rw [refused]
  rcases platformRefusal_cases _ x hx with ⟨r, hr, reserved, rfl⟩ | ⟨legal, r, hr, exposed, rfl⟩
  · exact .inl ⟨r, hr, reserved, rfl⟩
  · exact .inr ⟨legal, r, hr, exposed, rfl⟩

/-! ## A word held in storage -/

/-- The four bytes from `a` on are storage and hold the word, the lowest byte first (R44). -/
structure HoldsWord (s : State) (a : Nat) (w : Word) : Prop where
  storage : InStorage s.platform a 4
  bytes : ∀ k, k < 4 → Memory.read s.mem (a + k) = w.extractLsb' (8 * k) 8

/-- A store of a word that completes leaves the word held (R168). -/
theorem holdsWord_of_storeFrom (s t : State) (addr v : Word) (h : storeFrom addr 4 v s = .next t)
    (completes : t.trap = none) (storage : InStorage s.platform addr.toNat 4) : HoldsWord t addr.toNat v := by
  rcases storeFrom_cases addr 4 v s with ⟨-, e⟩ | ⟨-, -, e⟩ | ⟨-, r, -, e⟩ <;> rw [e] at h <;> cases h
  · cases completes
  · exact ⟨storage, fun k hk => (stored_memoryAfter s addr.toNat 4 v).stored k hk (storage k hk)⟩

section HoldsWord

variable {s : State} {a : Nat} {w : Word} (holds : HoldsWord s a w)
include holds

theorem HoldsWord.environmentWith (quiet : NothingArrivesAt s a) (clears : Bool) (ticks : DWord) :
    HoldsWord (environmentWith clears ticks s) a w where
  storage := by
    obtain ⟨-, -, -, -, -, platform, -⟩ := environmentWith_frame clears ticks s
    rw [platform]
    exact holds.storage
  bytes k hk := by
    rw [environmentWith_mem, foreignWrites_read_out _ _ _ (.inl fun c hc => quiet c hc k hk)]
    exact holds.bytes k hk

theorem HoldsWord.exec {i : Instr} {t : State} (h : exec i s = .next t)
    (outside : ∀ addr n, isStore i = true → dataAccess s i = some (addr, n) →
      addr.toNat + n ≤ a ∨ a + 4 ≤ addr.toNat) :
    HoldsWord t a w where
  storage := by
    rw [(exec_sameSystem i s t h).platform]
    exact holds.storage
  bytes k hk := by
    rw [exec_read_of_outside i s t h]
    · exact holds.bytes k hk
    · intro addr n store access
      have := outside addr n store access
      omega

theorem HoldsWord.leavesWord {t : State} (h : leavesWord a s t) : HoldsWord t a w := by
  obtain ⟨quiet, clears, ticks, i, runs, outside⟩ := h
  exact (holds.environmentWith quiet clears ticks).exec runs outside

/-- However many steps leave the word, storage still holds it. -/
theorem HoldsWord.leavesWords {t : State} (h : Relation.ReflTransGen (Safety.leavesWord a) s t) : HoldsWord t a w := by
  induction h with
  | refl => exact holds
  | tail _ last ih => exact ih.leavesWord last

theorem HoldsWord.readByte {b k : Nat} (hb : b = a + k) (hk : k < 4) : s.readByte b = w.extractLsb' (8 * k) 8 := by
  rw [hb, State.readByte_storage s _ (holds.storage k hk), holds.bytes k hk]

theorem HoldsWord.memRead8 {b k : Nat} (hb : b = a + k) (hk : k < 4) :
    memRead8 s.readByte b = w.extractLsb' (8 * k) 8 :=
  holds.readByte hb hk

theorem HoldsWord.memRead16 {b k : Nat} (hb : b = a + k) (hk : k < 3) :
    memRead16 s.readByte b = w.extractLsb' (8 * k) 16 := by
  rw [Machine.memRead16, holds.readByte (k := k + 1) (by omega) (by omega), holds.readByte hb (by omega)]
  exact bytes_of_half w (8 * k)

theorem HoldsWord.memRead32 : memRead32 s.readByte a = w := by
  rw [Machine.memRead32, holds.readByte (k := 3) rfl (by omega), holds.readByte (k := 2) rfl (by omega),
    holds.readByte (k := 1) rfl (by omega), holds.readByte (b := a) (k := 0) rfl (by omega)]
  exact bytes_of_word w

end HoldsWord

/-- The register of a load that completes holds what the load makes of the bytes it finds. -/
theorem loadTo_completed (rd : RegNum) (a : Word) (n : Nat) (f : (Nat → Byte) → Nat → Word) (s t : State)
    (h : loadTo rd a n f s = .next t) (completes : t.trap = none) (hrd : rd ≠ 0) :
    t.readGr rd = f s.readByte a.toNat := by
  rcases loadTo_cases rd a n f s with ⟨-, e⟩ | ⟨-, -, e⟩ | ⟨-, r, -, e⟩ <;> rw [e] at h <;> cases h
  · cases completes
  · have registers := (loaded_writeGr_advance_loadsOnly s rd a.toNat n (f s.readByte a.toNat)).registers rd
    rwa [if_neg hrd, if_pos rfl] at registers

/-! ## The fetch of what was just stored -/

/-- A fetch of the bytes a store has just written, none of them unsynchronised before, sees the whole store or nothing of
it: there is one choice for each store (R54, R64; log 18). -/
theorem fetchByte_after_store (s t : State) (a : Nat) (bs : List Byte) (mem : t.mem = (s.store a bs).mem)
    (unsynced : t.unsynced = (s.store a bs).unsynced) (platform : t.platform = s.platform)
    (storage : InStorage s.platform a bs.length) (synced : ∀ k, k < bs.length → FetchSynced s (a + k)) :
    (∀ k, (hk : k < bs.length) → fetchByte t (a + k) = bs[k]) ∨
    (∀ k, k < bs.length → fetchByte t (a + k) = Memory.read s.mem (a + k)) := by
  have sees (k : Nat) (hk : k < bs.length) : fetchByte t (a + k) =
      if Config.fetchSees t.draws s.unsynced.length then bs[k] else Memory.read s.mem (a + k) := by
    have touches := touchesStorage_of_inStorage _ _ _ storage (by omega)
    have stored : Memory.read t.mem (a + k) = bs[k] := by
      rw [mem, State.store_mem, Memory.read_writeStorage, storage k hk, if_neg (by simp),
        Memory.read_writeBytes_in _ _ _ _ hk]
    have old : UnsyncedStore.oldByte ⟨a, Memory.readBytes s.mem a bs.length⟩ (a + k) =
        some (Memory.read s.mem (a + k)) := by
      simp [UnsyncedStore.oldByte, hk]
    rw [fetchByte, platform, storage k hk, if_neg (by simp), stored, unsynced, State.store_unsynced, if_pos touches,
      fetchByteFrom, old]
    simp only [fetchByteFrom_untouched _ _ _ _ (synced k hk)]
  cases choice : Config.fetchSees t.draws s.unsynced.length with
  | true => exact .inl fun k hk => by simp [sees k hk, choice]
  | false => exact .inr fun k hk => by simp [sees k hk, choice]

end Sys2Proof.Machine

section Settled

open Sys2Proof Sys2Proof.Machine Sys2Proof.Safety

/-- Settles O18: the environment keeps the invariant, and so do a trap and every shape of a next state. -/
theorem stepKeepsInvariant : Obligations.StepKeepsInvariant := by
  intro s t inv h
  obtain ⟨running, -, ⟨-, rfl⟩ | ⟨w, -, -, ⟨i, -, runs⟩ | ⟨-, -, rfl⟩⟩⟩ := step_next_cases s t h
  · exact inv.environment.raise _
  · exact inv.environment.exec (by simpa using running) runs
  · exact inv.environment.raise _

/-- Settles O26: both clauses on memory are the one frame of the stores, `exec_read_of_outside`. -/
theorem memoryChangesByStoresAlone : Obligations.MemoryChangesByStoresAlone := by
  intro i s t h
  refine ⟨fun noStore b => ?_, fun addr n access b outside => ?_, exec_deviceAccesses_cases i s t h⟩
  · exact exec_read_of_outside i s t h b fun _ _ store => by simp [noStore] at store
  · refine exec_read_of_outside i s t h b fun a m _ own => ?_
    cases access.symm.trans own
    exact outside

/-- Settles O28: alignment is what each of the four shapes of a data access checks first, and no other shape of a next state
raises ALE. -/
theorem misalignedDataAccessRaisesAle : Obligations.MisalignedDataAccessRaisesAle := by
  refine fun i s => ⟨fun a n access bad => ⟨_, exec_of_misaligned i s a n access bad, raise_takesTrap _ _⟩,
    fun aligned running t r h traps a => ?_⟩
  rcases exec_trap_cases i s t r running h traps with ⟨c, e⟩ | ⟨c, e⟩ | ⟨b, n, access, bad, -⟩
  · simp [e]
  · simp [e]
  · exact absurd (aligned b n access) bad

/-- Settles O29: the map is what an aligned access meets next; read-only storage refuses a store at its first byte. -/
theorem accessOutsideMapIsRefused : Obligations.AccessOutsideMapIsRefused := by
  intro i s a n access aligned paired
  have refused := exec_of_accessRefusal i s a n access aligned paired
  refine ⟨refused, fun store readOnly => refused _ ?_⟩
  have pos : 0 < n := dataAccess_size_pos i s a n access
  obtain ⟨-, first⟩ := byteRefusal_readOnly _ _ _ 0 readOnly pos
  rw [accessKind, if_pos store]
  exact accessRefusal_of_first _ _ _ _ _ pos first

/-- Settles O49: the store leaves the word in storage, the steps and the environment between keep it there, and each load
puts together the bytes it finds. -/
theorem loadsSeeTheStoredWord : Obligations.LoadsSeeTheStoredWord := by
  rintro s t u e v rv rb rd rj si si' a k hrd stores completes rfl storage steps last address loads
  have atU := (holdsWord_of_storeFrom s t _ _ stores completes storage).leavesWords steps
  have holds : HoldsWord e (dataAddress s rb si).toNat (s.readGr rv) := by
    rcases last with rfl | ⟨quiet, clears, ticks, rfl⟩
    · exact atU
    · exact atU.environmentWith quiet clears ticks
  refine ⟨?word, fun half => ⟨?half, ?halfUnsigned⟩, fun byte => ⟨?byte, ?byteUnsigned⟩⟩
  case word =>
    rintro rfl h
    rw [loadTo_completed _ _ _ _ _ _ h loads hrd, address]
    exact holds.memRead32
  case half | halfUnsigned =>
    intro h
    simp only [exec, execLdh, execLdhu] at h
    rw [loadTo_completed _ _ _ _ _ _ h loads hrd, holds.memRead16 address (by omega)]
    rfl
  case byte | byteUnsigned =>
    intro h
    simp only [exec, execLdb, execLdbu] at h
    rw [loadTo_completed _ _ _ _ _ _ h loads hrd, holds.memRead8 address byte]
    rfl

/-- Settles O58: an ST.W that completes and a foreign store that arrives are each one store; one that does not arrive leaves
what was before. -/
theorem fetchSeesOldOrNewStore : Obligations.FetchSeesOldOrNewStore := by
  constructor
  · rintro s t rd rj si12 a h completes rfl storage synced
    have h : storeFrom (dataAddress s rj si12) 4 (s.readGr rd) s = .next t := h
    rcases storeFrom_cases (dataAddress s rj si12) 4 (s.readGr rd) s with ⟨-, e⟩ | ⟨-, -, e⟩ | ⟨-, r, -, e⟩ <;>
      rw [e] at h <;> cases h
    · cases completes
    · simpa using fetchByte_after_store s (s.stored _ _).advance _ (storeBytes 4 (s.readGr rd)) rfl rfl rfl
        (by simpa using storage) (by simpa using synced)
  · rintro s t c clears ticks incoming rfl storage synced
    obtain ⟨-, -, -, -, -, platform, -⟩ := environmentWith_frame clears ticks s
    have mem := environmentWith_mem clears ticks s
    have unsynced := environmentWith_unsynced clears ticks s
    rw [incoming, foreignWrites_cons, foreignWrites_nil] at mem unsynced
    rcases foreignWrite_cases s c with ⟨-, made⟩ | ⟨-, unchanged⟩
    · rw [made] at mem unsynced
      exact fetchByte_after_store s _ c.addr c.bytes mem unsynced platform storage synced
    · rw [unchanged] at mem unsynced
      refine .inr fun k hk => ?_
      have stillSynced : FetchSynced (environmentWith clears ticks s) (c.addr + k) := by
        rw [FetchSynced, unsynced]; exact synced k hk
      rw [fetchByte_synced _ _ (by rw [platform]; exact storage k hk) stillSynced, mem]

/-- Settles O11: a misaligned pc is found before the fetch; from an aligned one every trap is INE or an instruction's. -/
theorem misalignedPcRaisesAdef : Obligations.MisalignedPcRaisesAdef := by
  refine fun s running admitted => ⟨fun bad => ⟨_, step_of_misaligned_pc s running admitted bad, raise_takesTrap _ _⟩,
    fun aligned t h r traps a => ?_⟩
  obtain ⟨-, -, ⟨bad, -⟩ | ⟨w, -, -, ⟨i, -, runs⟩ | ⟨-, -, rfl⟩⟩⟩ := step_next_cases s t h
  · exact absurd aligned bad
  · rcases exec_trap_cases i _ t r (by simpa using running) runs traps with ⟨c, e⟩ | ⟨c, e⟩ | ⟨b, n, -, -, e⟩ <;>
      simp [e]
  · cases traps
    simp

/-- Settles O14: the fetch is refused by the map, and a platform that is not admitted for one of its own regions. -/
theorem fetchOutsideMapIsRefused : Obligations.FetchOutsideMapIsRefused := by
  intro s running
  refine ⟨fun admitted aligned => ?fetch, fun r hr reserved => ?reserved, fun legal r hr exposed => ?exposed⟩
  case fetch =>
    have refused := step_of_fetch_refused s running admitted aligned
    exact ⟨refused, fun above => refused _ <|
      accessRefusal_of_first _ _ _ _ _ (by omega) (byteRefusal_of_addrMax_lt _ _ _ above)⟩
  case reserved =>
    have noMat := (matOfField_eq_none r.mat).mpr reserved
    rcases step_of_not_configured s running fun ok => (ok r hr).1 noMat with ⟨q, -, noType, refused⟩ | ⟨all, -⟩
    · exact ⟨q.mat, (matOfField_eq_none q.mat).mp noType, refused⟩
    · exact absurd noMat (all r hr)
  case exposed =>
    rcases step_of_not_configured s running fun ok => (ok r hr).2 exposed with ⟨q, hq, noType, -⟩ | ⟨-, q, hq, refused⟩
    · rcases legal q hq with mat | mat <;> rw [mat] at noType <;> cases noType
    · exact ⟨q, hq, refused⟩

end Settled

/-! PROOFS. The obligations of 30_encoding.md. The decoder and the encoder are inverse to each other in both directions: the
decoder run on each format gives the instruction back, and each level of the decoder reads only words that the encoder
writes. The opcode table enters by its masks: a word that matches a row has the row's bits wherever the mask is 1, and these
are all the bits the decoder branches on. -/

namespace Sys2Proof

/-! ## Words and bytes -/

theorem wordOfBytes_slices (w : Word) :
    wordOfBytes (w.extractLsb' 0 8) (w.extractLsb' 8 8) (w.extractLsb' 16 8) (w.extractLsb' 24 8) = w := by
  unfold wordOfBytes
  rw [slice_join w 16 8 8, slice_join w 8 _ 8, slice_join w 0 _ 8]
  exact slice_all w

/-- Decoding takes the first four bytes, whatever follows (R45, R70). -/
theorem decode_wordBytes_append (w : Word) (i : Instr) (rest : List Byte) (h : decodeWord w = .ok i) :
    decode (wordBytes w ++ rest) = .ok (i, rest) := by
  simp [decode, wordBytes, wordOfBytes_slices, h]

theorem decodeWord_eq_ok (w : Word) (i : Instr) : decodeWord w = .ok i ↔ decodeFields w = some i := by
  unfold decodeWord
  cases decodeFields w <;> simp

theorem decodeWord_eq_unlisted (w : Word) : decodeWord w = .error (.unlisted w) ↔ decodeFields w = none := by
  unfold decodeWord
  cases decodeFields w <;> simp

/-! ## The decoder on the words of the encoder -/

/-- Under the opcode of RDCNTVL.W and RDCNTID one of the registers is r0, and rj is looked at first (R79, R80). -/
theorem decodeFields_enc2R_low (rj rd : RegNum) : decodeFields (enc2R 0x18#22 rj rd) =
    if rj = 0 then some (.rdcntvlw rd) else if rd = 0 then some (.rdcntid rj) else none := by
  simp [decodeFields, decodeArith, decodeThreeReg, enc2R_slices]

/-- Under the opcode of RDCNTVH.W rj is r0 (R80). -/
theorem decodeFields_enc2R_high (rj rd : RegNum) : decodeFields (enc2R 0x19#22 rj rd) =
    if rj = 0 then some (.rdcntvhw rd) else none := by
  simp [decodeFields, decodeArith, decodeThreeReg, enc2R_slices]

/-- The cases are grouped by format and by the level of the decoder that tells them apart. -/
theorem decodeFields_encode (i : Instr) (wf : i.wf = true) : decodeFields (encode i) = some i := by
  cases i with
  | addw | subw | slt | sltu | and | or | nor | xor | mulw | mulhw | mulhwu | divw | modw | divwu | modwu | sllw | srlw
  | sraw => simp [encode, decodeFields, decodeArith, decodeThreeReg, enc3R_slices]
  | syscall | brk => simp [encode, decodeFields, decodeArith, decodeThreeReg, encI15_slices]
  | rdcntvlw rd => simp [encode, decodeFields_enc2R_low]
  | rdcntvhw rd => simp [encode, decodeFields_enc2R_high]
  | rdcntid rj =>
    have : rj ≠ 0 := by simpa [Instr.wf] using wf
    rw [encode, decodeFields_enc2R_low, if_neg this, if_pos rfl]
  | slliw | srliw | sraiw => simp [encode, decodeFields, decodeArith, decodeShiftImm, enc3R_slices]
  | addiw | slti | sltui | andi | ori | xori => simp [encode, decodeFields, decodeArith, enc2RI12_slices]
  | llw | scw => simp [encode, decodeFields, decodeAtomic, enc2RI14_slices]
  | ldb | ldh | ldw | ldbu | ldhu | stb | sth | stw | preld =>
    simp [encode, decodeFields, decodeLoadStore, enc2RI12_slices]
  | dbar | ibar => simp [encode, decodeFields, decodeBarrier, encI15_slices]
  | lu12iw | pcaddu12i => simp [encode, decodeFields, enc1RI20_slices]
  | b | bl => simp [encode, decodeFields, encI26_slices]
  | beq | bne | blt | bge | bltu | bgeu | jirl => simp [encode, decodeFields, enc2RI16_slices]

/-! ## The words the decoder reads -/

/-- The word is the instruction's own. -/
structure Instr.EncodesTo (i : Instr) (w : Word) : Prop where
  wf : i.wf = true
  encode_eq : encode i = w

theorem slice_of_toNat {w : Word} {s n k : Nat} (h : (w.extractLsb' s n).toNat = k) :
    w.extractLsb' s n = BitVec.ofNat n k := by
  rw [← h, BitVec.ofNat_toNat, BitVec.setWidth_eq]

/-- An opcode field from its high part and the number in its low part. -/
theorem slice_of_parts {w : Word} (s n : Nat) {m k : Nat} {hi : BitVec m} (high : w.extractLsb' (s + n) m = hi)
    (low : (w.extractLsb' s n).toNat = k) : w.extractLsb' s (m + n) = hi ++ BitVec.ofNat n k := by
  rw [← slice_join, high, slice_of_toNat low]

section Opcode

variable {w : Word}

theorem enc3R_of_opcode {op : BitVec 17} (h : w.extractLsb' 15 17 = op) :
    enc3R op (w.extractLsb' 10 5) (w.extractLsb' 5 5) (w.extractLsb' 0 5) = w := h ▸ word_eq_enc3R w

theorem enc2RI12_of_opcode {op : BitVec 10} (h : w.extractLsb' 22 10 = op) :
    enc2RI12 op (w.extractLsb' 10 12) (w.extractLsb' 5 5) (w.extractLsb' 0 5) = w := h ▸ word_eq_enc2RI12 w

theorem enc2RI14_of_opcode {op : BitVec 8} (h : w.extractLsb' 24 8 = op) :
    enc2RI14 op (w.extractLsb' 10 14) (w.extractLsb' 5 5) (w.extractLsb' 0 5) = w := h ▸ word_eq_enc2RI14 w

theorem enc2RI16_of_opcode {op : BitVec 6} (h : w.extractLsb' 26 6 = op) :
    enc2RI16 op (w.extractLsb' 10 16) (w.extractLsb' 5 5) (w.extractLsb' 0 5) = w := h ▸ word_eq_enc2RI16 w

theorem enc1RI20_of_opcode {op : BitVec 7} (h : w.extractLsb' 25 7 = op) :
    enc1RI20 op (w.extractLsb' 5 20) (w.extractLsb' 0 5) = w := h ▸ word_eq_enc1RI20 w

theorem encI26_of_opcode {op : BitVec 6} (h : w.extractLsb' 26 6 = op) : encI26 op (fieldOffs26 w) = w :=
  h ▸ word_eq_encI26 w

theorem encI15_of_opcode {op : BitVec 17} (h : w.extractLsb' 15 17 = op) : encI15 op (w.extractLsb' 0 15) = w :=
  h ▸ word_eq_encI15 w

theorem enc2R_of_opcode {op : BitVec 22} {rj rd : RegNum} (h : w.extractLsb' 10 22 = op) (hj : w.extractLsb' 5 5 = rj)
    (hd : w.extractLsb' 0 5 = rd) : enc2R op rj rd = w := by
  subst h hj hd
  exact word_eq_enc2R w

variable {i : Instr}

theorem encodesTo_of_decodeThreeReg (high : w.extractLsb' 22 10 = 0) (h : decodeThreeReg w = some i) :
    i.EncodesTo w := by
  unfold decodeThreeReg at h
  split at h
  case h_1 low =>
    have op : w.extractLsb' 15 17 = 0 := (slice_of_parts 15 7 high low).trans rfl
    dsimp only at h
    split at h
    case h_1 low =>
      have op : w.extractLsb' 10 22 = 0x18 := (slice_of_parts 10 5 op low).trans rfl
      split_ifs at h with hj hd <;> cases h
      · exact ⟨rfl, enc2R_of_opcode op hj rfl⟩
      · exact ⟨by simpa [Instr.wf] using hj, enc2R_of_opcode op rfl hd⟩
    case h_2 low =>
      split_ifs at h with hj
      cases h
      exact ⟨rfl, enc2R_of_opcode ((slice_of_parts 10 5 op low).trans rfl) hj rfl⟩
    case h_3 => cases h
  case h_20 low | h_21 low =>
    cases h
    exact ⟨rfl, encI15_of_opcode ((slice_of_parts 15 7 high low).trans rfl)⟩
  case h_22 => cases h
  all_goals
    next low =>
    cases h
    exact ⟨rfl, enc3R_of_opcode ((slice_of_parts 15 7 high low).trans rfl)⟩

theorem encodesTo_of_decodeShiftImm (high : w.extractLsb' 22 10 = 1) (h : decodeShiftImm w = some i) :
    i.EncodesTo w := by
  unfold decodeShiftImm at h
  split at h
  case h_4 => cases h
  all_goals
    next low =>
    cases h
    exact ⟨rfl, enc3R_of_opcode ((slice_of_parts 15 7 high low).trans rfl)⟩

theorem encodesTo_of_decodeArith (high : w.extractLsb' 26 6 = 0) (h : decodeArith w = some i) : i.EncodesTo w := by
  unfold decodeArith at h
  split at h
  case h_1 low => exact encodesTo_of_decodeThreeReg ((slice_of_parts 22 4 high low).trans rfl) h
  case h_2 low => exact encodesTo_of_decodeShiftImm ((slice_of_parts 22 4 high low).trans rfl) h
  case h_9 => cases h
  all_goals
    next low =>
    cases h
    exact ⟨rfl, enc2RI12_of_opcode ((slice_of_parts 22 4 high low).trans rfl)⟩

theorem encodesTo_of_decodeAtomic (high : w.extractLsb' 26 6 = 8) (h : decodeAtomic w = some i) : i.EncodesTo w := by
  unfold decodeAtomic at h
  split at h
  case h_3 => cases h
  all_goals
    next low =>
    cases h
    exact ⟨rfl, enc2RI14_of_opcode ((slice_of_parts 24 2 high low).trans rfl)⟩

theorem encodesTo_of_decodeLoadStore (high : w.extractLsb' 26 6 = 10) (h : decodeLoadStore w = some i) :
    i.EncodesTo w := by
  unfold decodeLoadStore at h
  split at h
  case h_10 => cases h
  all_goals
    next low =>
    cases h
    exact ⟨rfl, enc2RI12_of_opcode ((slice_of_parts 22 4 high low).trans rfl)⟩

theorem encodesTo_of_decodeBarrier (high : w.extractLsb' 26 6 = 14) (h : decodeBarrier w = some i) :
    i.EncodesTo w := by
  unfold decodeBarrier at h
  split at h
  case h_3 => cases h
  all_goals
    next low =>
    cases h
    exact ⟨rfl, encI15_of_opcode ((slice_of_parts 15 11 high low).trans rfl)⟩

theorem encodesTo_of_decodeFields (h : decodeFields w = some i) : i.EncodesTo w := by
  unfold decodeFields at h
  split at h
  case h_1 op => exact encodesTo_of_decodeArith (slice_of_toNat op) h
  case h_2 op | h_3 op =>
    split_ifs at h with low
    cases h
    exact ⟨rfl, enc1RI20_of_opcode ((slice_of_parts 25 1 (slice_of_toNat op) (congrArg _ low)).trans rfl)⟩
  case h_4 op => exact encodesTo_of_decodeAtomic (slice_of_toNat op) h
  case h_5 op => exact encodesTo_of_decodeLoadStore (slice_of_toNat op) h
  case h_6 op => exact encodesTo_of_decodeBarrier (slice_of_toNat op) h
  case h_8 op | h_9 op =>
    cases h
    exact ⟨rfl, encI26_of_opcode (slice_of_toNat op)⟩
  case h_16 => cases h
  all_goals
    next op =>
    cases h
    exact ⟨rfl, enc2RI16_of_opcode (slice_of_toNat op)⟩

end Opcode

/-- The decoder reads exactly the words of the well-formed instructions, each as the instruction it encodes. -/
theorem decodeWord_eq_ok_iff_encodesTo (w : Word) (i : Instr) : decodeWord w = .ok i ↔ i.EncodesTo w := by
  rw [decodeWord_eq_ok]
  refine ⟨encodesTo_of_decodeFields, ?_⟩
  rintro ⟨wf, rfl⟩
  exact decodeFields_encode i wf

theorem decodeWord_encode (i : Instr) (wf : i.wf = true) : decodeWord (encode i) = .ok i :=
  (decodeWord_eq_ok_iff_encodesTo _ i).mpr ⟨wf, rfl⟩

/-! ## The opcode table -/

theorem row_mem_opcodeRows (i : Instr) : i.row ∈ opcodeRows := by
  cases i <;> simp [opcodeRows, Instr.row]

/-- The word of an instruction has the fixed bits of its row (R78). -/
theorem encode_matches_row (i : Instr) : encode i &&& i.row.mask = i.row.pattern := by
  cases i with
  | addw | subw | slt | sltu | and | or | nor | xor | mulw | mulhw | mulhwu | divw | modw | divwu | modwu | sllw | srlw
  | sraw | slliw | srliw | sraiw => exact (Laws.OpcodeRow.enc3R_fixed _ _ _ _).trans rfl
  | addiw | slti | sltui | andi | ori | xori | ldb | ldh | ldw | ldbu | ldhu | stb | sth | stw | preld =>
    exact (Laws.OpcodeRow.enc2RI12_fixed _ _ _ _).trans rfl
  | llw | scw => exact (Laws.OpcodeRow.enc2RI14_fixed _ _ _ _).trans rfl
  | beq | bne | blt | bge | bltu | bgeu | jirl => exact (Laws.OpcodeRow.enc2RI16_fixed _ _ _ _).trans rfl
  | lu12iw | pcaddu12i => exact (Laws.OpcodeRow.enc1RI20_fixed _ _ _).trans rfl
  | b | bl => exact (Laws.OpcodeRow.encI26_fixed _ _).trans rfl
  | dbar | ibar | syscall | brk => exact (Laws.OpcodeRow.encI15_fixed _ _).trans rfl
  | rdcntvlw rd => exact Laws.OpcodeRow.rdcntvlw rd
  | rdcntvhw rd => exact Laws.OpcodeRow.rdcntvhw rd
  | rdcntid rj => exact Laws.OpcodeRow.rdcntid rj

/-- What is decoded belongs to the row its word matches. -/
theorem decodeFields_matches_row (w : Word) (i : Instr) (h : decodeFields w = some i) :
    w &&& i.row.mask = i.row.pattern := by
  obtain ⟨-, rfl⟩ := encodesTo_of_decodeFields h
  exact encode_matches_row i

/-- Where the mask is 1 in a whole field, a word that matches has the pattern's field. -/
theorem slice_of_matches {w m p : Word} (h : w &&& m = p) (s l : Nat) (fixed : m.extractLsb' s l = BitVec.allOnes l) :
    w.extractLsb' s l = p.extractLsb' s l := by
  rw [← h, BitVec.extractLsb'_and, fixed, BitVec.and_allOnes]

/-- Every word of a row but 0x00006000 is read as that row's instruction: the mask covers each field the decoder branches
on, level by level. For RDCNTID it does not cover rj, which is r0 in 0x00006000 alone (R79). -/
theorem map_row_decodeFields_of_matches (w : Word) (j : Instr) (h : w &&& j.row.mask = j.row.pattern)
    (ne : w ≠ 0x00006000) : (decodeFields w).map Instr.row = some j.row := by
  have fixed := slice_of_matches h
  cases j with
  | rdcntid =>
    simp only [Instr.row] at fixed
    have word : enc2R 0x18#22 (w.extractLsb' 5 5) 0 = w := enc2R_of_opcode (by simp [fixed]) rfl (by simp [fixed])
    have rj : w.extractLsb' 5 5 ≠ 0 := by
      intro zero
      rw [zero] at word
      exact ne word.symm
    have read := decodeFields_enc2R_low (w.extractLsb' 5 5) 0
    rw [word, if_neg rj, if_pos rfl] at read
    simp [read, Instr.row]
  | addw | subw | slt | sltu | and | or | nor | xor | mulw | mulhw | mulhwu | divw | modw | divwu | modwu | sllw | srlw
  | sraw | syscall | brk | rdcntvlw | rdcntvhw =>
    simp only [Instr.row] at fixed
    simp [decodeFields, decodeArith, decodeThreeReg, fixed, Instr.row]
  | slliw | srliw | sraiw =>
    simp only [Instr.row] at fixed
    simp [decodeFields, decodeArith, decodeShiftImm, fixed, Instr.row]
  | addiw | slti | sltui | andi | ori | xori =>
    simp only [Instr.row] at fixed
    simp [decodeFields, decodeArith, fixed, Instr.row]
  | llw | scw =>
    simp only [Instr.row] at fixed
    simp [decodeFields, decodeAtomic, fixed, Instr.row]
  | ldb | ldh | ldw | ldbu | ldhu | stb | sth | stw | preld =>
    simp only [Instr.row] at fixed
    simp [decodeFields, decodeLoadStore, fixed, Instr.row]
  | dbar | ibar =>
    simp only [Instr.row] at fixed
    simp [decodeFields, decodeBarrier, fixed, Instr.row]
  | beq | bne | blt | bge | bltu | bgeu | jirl | b | bl | lu12iw | pcaddu12i =>
    simp only [Instr.row] at fixed
    simp [decodeFields, fixed, Instr.row]

end Sys2Proof

namespace Sys2Proof.Machine

open Sys2Proof.Safety

/-! ## The step at an unlisted word -/

/-- The step of a run that goes on, at an aligned pc, where the word fetched is no instruction (R86, R222). -/
theorem step_of_unlisted (s : State) (w : Word) (e : DecodeError) (running : s.trap = none)
    (admitted : Configured s.platform) (aligned : Aligned s.pc 4) (fetched : fetchWord (environment s) = .ok w)
    (unlisted : decodeWord w = .error e) :
    step s = if w ∈ s.platform.ineWords then .next (raise (.ine w) (environment s)) else .refused (.unlisted w) := by
  have pc : pcMisaligned (environment s) = false := by simpa [pcMisaligned, misaligned_eq_false] using aligned
  simp [step, running, runStep, (platformRefusal_eq_none _).mpr admitted, fetchAndExec, pc, fetched, decodeAndExec,
    unlisted]

end Sys2Proof.Machine

section Settled

open Sys2Proof Sys2Proof.Machine Sys2Proof.Safety

/-- Settles O1: the word decodes back, case by case of the formats, and its bytes are put together to the word again. -/
theorem decodeReadsEncodedInstruction : Obligations.DecodeReadsEncodedInstruction := fun i rest wf =>
  have word := decodeWord_encode i wf
  ⟨word, decode_wordBytes_append _ i rest word⟩

/-- Settles O2: each level of the decoder reads only words that the encoder writes. -/
theorem encodeRestoresDecodedWord : Obligations.EncodeRestoresDecodedWord := by
  intro w i h
  obtain ⟨wf, encoded⟩ := (decodeWord_eq_ok_iff_encodesTo w i).mp h
  exact ⟨wf, encoded⟩

/-- Settles O3: the mask of a row covers what the decoder branches on, and the encoder writes the row's bits; so a word the
decoder reads matches a row, and a word of no row is not read. -/
theorem decodeFollowsOpcodeTable : Obligations.DecodeFollowsOpcodeTable := by
  refine ⟨fun w i h => ?reads, fun w row listed h ne => ?matching, fun w none_matches => ?unlisted, ?shared⟩
  case reads => exact ⟨row_mem_opcodeRows i, decodeFields_matches_row w i ((decodeWord_eq_ok w i).mp h)⟩
  case matching =>
    obtain ⟨j, -, rfl⟩ := List.mem_map.mp listed
    simpa only [decodeWord_eq_ok, Option.map_eq_some_iff] using map_row_decodeFields_of_matches w j h ne
  case unlisted =>
    rw [decodeWord_eq_unlisted, Option.eq_none_iff_forall_ne_some]
    exact fun i h => none_matches i.row (row_mem_opcodeRows i) (decodeFields_matches_row w i h)
  case shared => exact decodeWord_encode (.rdcntvlw 0) rfl

/-- Settles O4: each word is the code of its instruction. -/
theorem listedWordsDecode : Obligations.ListedWordsDecode := by
  simp only [Obligations.ListedWordsDecode, decodeWord_eq_ok_iff_encodesTo]
  and_intros <;> exact ⟨rfl, rfl⟩

/-- Settles O5: the decoder asks for rj = 0 under both opcodes, or for rd = 0 under that of RDCNTID. -/
theorem rdtimeFormsAreUnlisted : Obligations.RdtimeFormsAreUnlisted := by
  intro rd rj hj
  simp only [decodeWord_eq_unlisted, decodeFields_enc2R_low, decodeFields_enc2R_high, if_neg hj]
  exact ⟨fun hd => if_neg hd, trivial⟩

/-- Settles O13: the word is looked up in the platform's list, and nothing else happens. -/
theorem unlistedWordRaisesIneOrIsRefused : Obligations.UnlistedWordRaisesIneOrIsRefused := by
  intro s w running admitted aligned fetched unlisted
  rw [step_of_unlisted s w _ running admitted aligned fetched unlisted]
  exact ⟨fun listed => ⟨_, if_pos listed, raise_takesTrap _ _⟩, fun absent => if_neg absent⟩

end Settled

/-! PROOFS. The obligations of 40_arithmetic.md. What the registers, the pc and the rest of the state become is said by the
laws of the shared shapes of effect; what is added here is the arithmetic of the words written: a product fits 64 bits, and
the quotient and the remainder are the library's divisions of bit vectors, whose values as integers are known. -/

namespace Sys2Proof.Machine

open Sys2Proof.Safety

/-! ## Comparisons -/

theorem truthWord_lessSigned (a b : Word) : truthWord (lessSigned a b) = if a.toInt < b.toInt then 1 else 0 := by
  simp [truthWord, lessSigned]

theorem truthWord_lessUnsigned (a b : Word) : truthWord (lessUnsigned a b) = if a.toNat < b.toNat then 1 else 0 := by
  simp [truthWord, lessUnsigned]

theorem sext_toInt {w : Nat} (v : BitVec w) (narrow : w ≤ 32) : (sext v).toInt = v.toInt :=
  BitVec.toInt_signExtend_of_le narrow

/-! ## Products -/

/-- Nothing of a signed product is lost: it lies between -2^62 and 2^62. -/
theorem signedProduct_toInt (a b : Word) : (signedProduct a b).toInt = a.toInt * b.toInt := by
  have lower : -(2 ^ 62) ≤ a.toInt * b.toInt := BitVec.le_toInt_mul_toInt
  have upper : a.toInt * b.toInt ≤ 2 ^ 62 := BitVec.toInt_mul_toInt_le
  exact BitVec.toInt_ofInt_eq_self (by decide) (by omega) (by omega)

/-- Nothing of an unsigned product is lost. -/
theorem unsignedProduct_toNat (a b : Word) : (unsignedProduct a b).toNat = a.toNat * b.toNat :=
  (BitVec.toNat_ofNat _ _).trans (Nat.mod_eq_of_lt BitVec.toNat_mul_toNat_lt)

/-! ## Quotient and remainder -/

/-- The operands of R127, as integers. -/
theorem quotientOverflows_iff (n d : Word) : quotientOverflows n d = true ↔ n.toInt = -2 ^ 31 ∧ d.toInt = -1 := by
  have dividend : n.toInt = -2 ^ 31 ↔ n = 0x80000000 := BitVec.toInt_inj (y := 0x80000000#32)
  have divisor : d.toInt = -1 ↔ d = 0xFFFFFFFF := BitVec.toInt_inj (y := 0xFFFFFFFF#32)
  rw [dividend, divisor, quotientOverflows, Bool.and_eq_true, beq_iff_eq, beq_iff_eq]

theorem signedQuotient_eq_sdiv (n d : Word) : signedQuotient n d = n.sdiv d :=
  BitVec.eq_of_toInt_eq (by rw [signedQuotient, BitVec.toInt_ofInt, BitVec.toInt_sdiv])

theorem signedRemainder_eq_srem (n d : Word) : signedRemainder n d = n.srem d := by
  rw [signedRemainder, ← BitVec.toInt_srem, BitVec.ofInt_toInt]

theorem unsignedQuotient_eq_div (n d : Word) : unsignedQuotient n d = n / d := by
  rw [unsignedQuotient, ← BitVec.toNat_udiv, BitVec.ofNat_toNat, BitVec.setWidth_eq]

theorem unsignedRemainder_eq_mod (n d : Word) : unsignedRemainder n d = n % d := by
  rw [unsignedRemainder, ← BitVec.toNat_umod, BitVec.ofNat_toNat, BitVec.setWidth_eq]

/-- The quotient fits for every pair of operands but the one of R127. -/
theorem signedQuotient_toInt (n d : Word) (fits : quotientOverflows n d = false) :
    (signedQuotient n d).toInt = n.toInt.tdiv d.toInt := by
  have other : n ≠ BitVec.intMin 32 ∨ d ≠ -1#32 := by
    by_contra! overflow
    obtain ⟨rfl, rfl⟩ := overflow
    exact absurd fits (by decide)
  rw [signedQuotient_eq_sdiv, BitVec.toInt_sdiv_of_ne_or_ne n d other]

/-- The remainder always fits. -/
theorem signedRemainder_toInt (n d : Word) : (signedRemainder n d).toInt = n.toInt.tmod d.toInt := by
  rw [signedRemainder_eq_srem, BitVec.toInt_srem]

theorem unsignedQuotient_toNat (n d : Word) : (unsignedQuotient n d).toNat = n.toNat / d.toNat := by
  rw [unsignedQuotient_eq_div, BitVec.toNat_udiv]

theorem unsignedRemainder_toNat (n d : Word) : (unsignedRemainder n d).toNat = n.toNat % d.toNat := by
  rw [unsignedRemainder_eq_mod, BitVec.toNat_umod]

/-! ## The division law of the integers (R125) -/

theorem abs_tmod_lt (n : ℤ) {d : ℤ} (hd : d ≠ 0) : |n.tmod d| < |d| := by
  rw [Int.abs_eq_natAbs, Int.abs_eq_natAbs, Int.natAbs_tmod]
  exact_mod_cast Nat.mod_lt _ (Int.natAbs_pos.mpr hd)

/-- The remainder has the sign of the dividend, where it is not 0. -/
theorem tmod_mul_dividend_nonneg (n d : ℤ) : 0 ≤ n.tmod d * n := by
  rw [← Int.sign_nonneg_iff, Int.sign_mul, Int.sign_tmod]
  split
  · simp
  · exact mul_self_nonneg _

/-- The quotient has the sign the two signs give, where it is not 0. -/
theorem tdiv_mul_operands_nonneg (n d : ℤ) : 0 ≤ n.tdiv d * (n * d) := by
  rw [← Int.sign_nonneg_iff, Int.sign_mul, Int.sign_tdiv, Int.sign_mul]
  split
  · simp
  · exact mul_self_nonneg _

/-! ## The effect of a division -/

/-- Everything a division can do: a free value where the divisor is 0 or the quotient is open, else the result. -/
theorem divideTo_completes (rd : RegNum) (d v : Word) (u : Bool) (s : State) :
    ∃ t, divideTo rd d v u s = .next t ∧
      if d = 0 ∨ u = true then WritesFreeValue s t rd else WritesOnly s t rd v := by
  by_cases h : d = 0 ∨ u = true
  · simpa only [if_pos h, divideTo_zero rd d v u s h] using drawAndAdvance_completes rd s
  · have nonzero : d ≠ 0 := fun hd => h (.inl hd)
    have fixed : u = false := by simpa using fun hu => h (.inr hu)
    subst fixed
    simpa only [if_neg h, divideTo_nonzero rd d v s nonzero] using writeAndAdvance_completes rd v s

/-- The same for the three divisions without an open quotient. -/
theorem divideTo_false_completes (rd : RegNum) (d v : Word) (s : State) :
    ∃ t, divideTo rd d v false s = .next t ∧ if d = 0 then WritesFreeValue s t rd else WritesOnly s t rd v := by
  simpa using divideTo_completes rd d v false s

/-- A division whose result is fixed leaves it in its register. -/
theorem readGr_of_divideTo {rd : RegNum} {d v : Word} {u : Bool} {s t : State} (h : divideTo rd d v u s = .next t)
    (hrd : rd ≠ 0) (nonzero : d ≠ 0) (fixed : u = false) : t.readGr rd = v := by
  subst fixed
  rw [divideTo_nonzero rd d v s nonzero, writeAndAdvance_eq] at h
  cases h
  have registers := (writeGr_advance_writesOnly s rd v).registers rd
  rwa [if_neg hrd, if_pos rfl] at registers

end Sys2Proof.Machine

section Settled

open Sys2Proof Sys2Proof.Machine Sys2Proof.Safety

/-- Settles O36: 64 bits hold both products. -/
theorem productHalves : Obligations.ProductHalves := by
  intro s rd rj rk
  obtain ⟨t, low⟩ := writeAndAdvance_completes rd (lowWord (signedProduct (s.readGr rj) (s.readGr rk))) s
  obtain ⟨u, high⟩ := writeAndAdvance_completes rd (highWord (unsignedProduct (s.readGr rj) (s.readGr rk))) s
  exact ⟨⟨_, t, signedProduct_toInt _ _, low⟩, ⟨_, u, unsignedProduct_toNat _ _, high⟩⟩

/-- Settles O37: 64 bits hold the signed product. -/
theorem signedProductHighHalf : Obligations.SignedProductHighHalf := by
  intro s rd rj rk
  obtain ⟨t, high⟩ := writeAndAdvance_completes rd (highWord (signedProduct (s.readGr rj) (s.readGr rk))) s
  exact ⟨_, t, signedProduct_toInt _ _, high⟩

/-- Settles O38: the condition for a free value is that of `divideTo`, and a remainder is what the quotient leaves. -/
theorem divisionResults : Obligations.DivisionResults := by
  intro s rd rj rk n d
  refine ⟨?divw, ?modw, divideTo_false_completes rd d (unsignedQuotient n d) s, ?modwu⟩
  case divw =>
    simp only [← quotientOverflows_iff]
    exact divideTo_completes rd d (signedQuotient n d) (quotientOverflows n d) s
  case modw =>
    have remainder : n.toInt - Int.tdiv n.toInt d.toInt * d.toInt = Int.tmod n.toInt d.toInt := by
      rw [Int.tmod_def, Int.mul_comm]
    rw [remainder]
    exact divideTo_false_completes rd d (signedRemainder n d) s
  case modwu =>
    rw [← Nat.mod_eq_sub_div_mul]
    exact divideTo_false_completes rd d (unsignedRemainder n d) s

/-- Settles O39: the words written are the integers' quotient and remainder, which satisfy the law. -/
theorem divisionLaw : Obligations.DivisionLaw := by
  refine fun s tq tr rd rj rk hrd nonzero => ⟨fun fits hq hr => ?signed, fun hq hr => ?unsigned⟩
  case signed =>
    have fits : quotientOverflows (s.readGr rj) (s.readGr rk) = false :=
      Bool.eq_false_iff.mpr (mt (quotientOverflows_iff _ _).mp fits)
    have nonzero' : (s.readGr rk).toInt ≠ 0 := fun zero => nonzero (BitVec.eq_of_toInt_eq zero)
    rw [readGr_of_divideTo hq hrd nonzero fits, readGr_of_divideTo hr hrd nonzero rfl, signedQuotient_toInt _ _ fits,
      signedRemainder_toInt]
    exact ⟨(Int.tdiv_mul_add_tmod _ _).symm, abs_tmod_lt _ nonzero', tmod_mul_dividend_nonneg _ _,
      tdiv_mul_operands_nonneg _ _⟩
  case unsigned =>
    have positive : 0 < (s.readGr rk).toNat := Nat.pos_of_ne_zero fun zero => nonzero (BitVec.eq_of_toNat_eq zero)
    rw [readGr_of_divideTo hq hrd nonzero rfl, readGr_of_divideTo hr hrd nonzero rfl, unsignedQuotient_toNat,
      unsignedRemainder_toNat]
    exact ⟨(Nat.div_add_mod' _ _).symm, Nat.mod_lt _ positive⟩

/-- Settles O31: each writes one register and advances. -/
theorem addImmediateAndUpperResults : Obligations.AddImmediateAndUpperResults := fun s rd _ _ _ =>
  have completes v := writeAndAdvance_completes rd v s
  ⟨completes _, completes _, completes _⟩

/-- Settles O32: each writes one register and advances. -/
theorem registerArithmeticResults : Obligations.RegisterArithmeticResults := fun s rd _ _ =>
  have completes v := writeAndAdvance_completes rd v s
  ⟨completes _, completes _, completes _, completes _, completes _, completes _⟩

/-- Settles O33: each writes one register and advances. -/
theorem logicalImmediateResults : Obligations.LogicalImmediateResults := fun s rd _ _ =>
  have completes v := writeAndAdvance_completes rd v s
  ⟨completes _, completes _, completes _⟩

/-- Settles O34: the word is the code of ANDI r0, r0, 0, whose write of r0 is lost. -/
theorem nopOnlyAdvances : Obligations.NopOnlyAdvances :=
  ⟨decodeWord_encode (.andi 0 0 0) rfl, fun _ => rfl⟩

/-- Settles O35: the comparisons are those of the integers, and extending an immediate by sign keeps its value. -/
theorem setOnLessThanResults : Obligations.SetOnLessThanResults := by
  intro s rd rj rk si12
  rw [← sext_toInt si12 (by decide)]
  simp only [← truthWord_lessSigned, ← truthWord_lessUnsigned]
  have completes v := writeAndAdvance_completes rd v s
  exact ⟨completes _, completes _, completes _, completes _⟩

/-- Settles O40: it is the pair of the open quotient, and the exact quotient times the divisor leaves nothing. -/
theorem divisionOverflow : Obligations.DivisionOverflow := by
  intro s rd rj rk dividend divisor
  obtain ⟨⟨tq, answersQ, quotient⟩, ⟨tr, answersR, remainder⟩, -, -⟩ := divisionResults s rd rj rk
  rw [dividend, divisor] at quotient remainder
  rw [if_pos (by decide)] at quotient
  rw [if_neg (by decide)] at remainder
  exact ⟨⟨tr, answersR, remainder⟩, ⟨tq, answersQ, quotient⟩⟩

end Settled

/-! PROOFS. The obligations of 41_shift.md. The law of a register write says what becomes of the state; what is added here
is what a shift does to the bits of a word. Its value as an integer is the library's. -/

namespace Sys2Proof.Machine

open Sys2Proof.Safety

/-- A register write completes, and the register holds a word with whatever property the word written has. -/
theorem writeAndAdvance_completes_with {P : Word → Prop} (rd : RegNum) {v : Word} (s : State) (hv : P v) :
    ∃ v' t, writeAndAdvance rd v s = .next t ∧ WritesOnly s t rd v' ∧ P v' := by
  obtain ⟨t, answers, writes⟩ := writeAndAdvance_completes rd v s
  exact ⟨v, t, answers, writes, hv⟩

/-! ## The amount (R130) -/

theorem shiftAmount_eq_mod (v : Word) : shiftAmount v = v.toNat % 32 :=
  BitVec.extractLsb'_toNat 0 5 v

/-! ## Bit by bit (R131 to R133) -/

/-- Zeros enter at the bottom. -/
theorem getLsbD_shiftLeft_word (x : Word) (n : Nat) {k : Nat} (hk : k < 32) :
    (x <<< n).getLsbD k = (decide (n ≤ k) && x.getLsbD (k - n)) := by
  rw [BitVec.getLsbD_shiftLeft, ← decide_not]
  simp only [hk, decide_true, Bool.true_and, Nat.not_lt]

/-- A word has no bit 32 or above, so zeros enter at the top. -/
theorem getLsbD_ushiftRight_word (x : Word) (n k : Nat) :
    (x >>> n).getLsbD k = (decide (k + n < 32) && x.getLsbD (k + n)) := by
  rw [BitVec.getLsbD_ushiftRight, Nat.add_comm n k]
  by_cases inside : k + n < 32
  · simp [inside]
  · simp [inside, BitVec.getLsbD_of_ge x (k + n) (Nat.le_of_not_lt inside)]

/-- What enters at the top is bit 31, where the `min` stops. -/
theorem getLsbD_sshiftRight_word (x : Word) (n : Nat) {k : Nat} (hk : k < 32) :
    (x.sshiftRight n).getLsbD k = x.getLsbD (min (k + n) 31) := by
  rw [BitVec.getLsbD_sshiftRight, Nat.add_comm n k, BitVec.msb_eq_getLsbD_last]
  by_cases inside : k + n < 32
  · simp [hk, inside, Nat.min_eq_left (Nat.le_of_lt_succ inside)]
  · simp [hk, inside, Nat.min_eq_right (show 31 ≤ k + n by omega)]

end Sys2Proof.Machine

section Settled

open Sys2Proof Sys2Proof.Machine Sys2Proof.Safety

/-- Settles O41: each writes the shifted word and advances, and the amount is `x[rk]` modulo 32. -/
theorem registerShiftResults : Obligations.RegisterShiftResults := by
  intro s rd rj rk
  rw [← shiftAmount_eq_mod]
  exact ⟨writeAndAdvance_completes_with rd s fun _ hk => getLsbD_shiftLeft_word _ _ hk,
    writeAndAdvance_completes_with rd s fun k _ => getLsbD_ushiftRight_word _ _ k,
    writeAndAdvance_completes_with rd s fun _ hk => getLsbD_sshiftRight_word _ _ hk⟩

/-- Settles O42: each writes the shifted word and advances. The division of integers by a power of two rounds down, as
copies of the sign bit do. -/
theorem immediateShiftResults : Obligations.ImmediateShiftResults := by
  intro s rd rj ui5
  refine ⟨writeAndAdvance_completes_with rd s ?left, writeAndAdvance_completes_with rd s ?logical,
    writeAndAdvance_completes_with rd s ?arithmetic⟩
  case left => rw [BitVec.toNat_shiftLeft, Nat.shiftLeft_eq]
  case logical => rw [BitVec.toNat_ushiftRight, Nat.shiftRight_eq_div_pow]
  case arithmetic => rw [BitVec.toInt_sshiftRight, Int.shiftRight_eq_div_pow, Nat.cast_pow, Nat.cast_ofNat]

end Settled

/-! PROOFS. The obligations of 42_branch.md. The laws of the shared shapes of effect say what a branch leaves behind; what is
added here is the same for a transfer that links, the relations of R141 to R146 against the model's comparisons, and the
value of an offset in words. -/

namespace Sys2Proof.Machine

open Sys2Proof.Safety

/-! ## Offsets in words (R140, R180) -/

/-- Two zero bits below a field, extended by sign, multiply its value by four. -/
theorem sext_append_zeros_toInt {n : Nat} (v : BitVec n) (narrow : n + 2 ≤ 32) :
    (sext (v ++ 0#2)).toInt = 4 * v.toInt :=
  (sext_toInt _ narrow).trans BitVec.toInt_append_zero

/-- The value of an offset in words, and how far it reaches. -/
theorem sext_append_zeros_reach {n : Nat} (v : BitVec (n + 1)) (narrow : n + 3 ≤ 32) :
    (sext (v ++ 0#2)).toInt = 4 * v.toInt ∧ -2 ^ (n + 2) ≤ (sext (v ++ 0#2)).toInt ∧
      (sext (v ++ 0#2)).toInt ≤ 2 ^ (n + 2) - 4 := by
  have lower : -2 ^ n ≤ v.toInt := v.le_toInt
  have upper : v.toInt < 2 ^ n := v.toInt_lt
  rw [sext_append_zeros_toInt v narrow, pow_add]
  omega

/-- An address moved by an offset in words is as aligned as before. -/
theorem aligned_add_sext_append_zeros_iff {n : Nat} (base : Word) (v : BitVec n) :
    Aligned (base + sext (v ++ 0#2)) 4 ↔ Aligned base 4 :=
  aligned_add_iff base _ (aligned_sext_append_zeros v)

/-! ## Shapes of effect -/

/-- A conditional branch whose comparison says the relation `p` goes to its target where `p` holds. -/
theorem branchIf_completes_of_iff {c : Bool} {p : Prop} [Decidable p] (holds : c = true ↔ p) (o : BitVec 16) (s : State) :
    ∃ t, branchIf c o s = .next t ∧ GoesOnlyTo s t (if p then s.pc + offset16 o else s.pc + 4) := by
  simpa only [holds] using branchIf_completes c o s

/-- Everything a jump without a link does. -/
theorem setPc_goesOnlyTo (s : State) (target : Word) : GoesOnlyTo s (s.setPc target) target :=
  ⟨fun _ => rfl, rfl, ⟨fun _ => rfl, rfl, rfl⟩, ⟨rfl, rfl⟩, ⟨rfl, rfl, rfl, rfl, rfl⟩, rfl, rfl⟩

/-- Everything a jump with a link does. -/
theorem writeGr_setPc_linksAndGoesTo (s : State) (rd : RegNum) (link target : Word) :
    LinksAndGoesTo s ((s.writeGr rd link).setPc target) rd link target := by
  refine ⟨fun r => ?_, ?_, ⟨fun a => ?_, ?_, ?_⟩, ⟨?_, ?_⟩, ⟨?_, ?_, ?_, ?_, ?_⟩, ?_, ?_⟩ <;> simp [State.readGr_writeGr]

/-! ## The relations (R143 to R146) -/

theorem lessSigned_eq_true (a b : Word) : lessSigned a b = true ↔ a.toInt < b.toInt := decide_eq_true_iff

theorem not_lessSigned_eq_true (a b : Word) : (!lessSigned a b) = true ↔ a.toInt ≥ b.toInt := by
  simp [lessSigned]

theorem lessUnsigned_eq_true (a b : Word) : lessUnsigned a b = true ↔ a.toNat < b.toNat := decide_eq_true_iff

theorem not_lessUnsigned_eq_true (a b : Word) : (!lessUnsigned a b) = true ↔ a.toNat ≥ b.toNat := by
  simp [lessUnsigned]

end Sys2Proof.Machine

section Settled

open Sys2Proof Sys2Proof.Machine Sys2Proof.Safety

/-- Settles O46: all three are two zero bits below the field, extended by sign. -/
theorem wordOffsetsAreScaledByFour : Obligations.WordOffsetsAreScaledByFour :=
  ⟨fun o => sext_append_zeros_reach o (by decide), fun o => sext_append_zeros_reach o (by decide),
    fun o => sext_append_zeros_reach o (by decide), aligned_add_sext_append_zeros_iff, aligned_add_sext_append_zeros_iff,
    fun s rj => aligned_add_sext_append_zeros_iff (s.readGr rj)⟩

/-- Settles O43: each is the shared branch under a comparison that says its relation. -/
theorem conditionalBranchResults : Obligations.ConditionalBranchResults := fun s _ _ o =>
  ⟨branchIf_completes_of_iff beq_iff_eq o s, branchIf_completes_of_iff bne_iff_ne o s,
    branchIf_completes_of_iff (lessSigned_eq_true _ _) o s, branchIf_completes_of_iff (not_lessSigned_eq_true _ _) o s,
    branchIf_completes_of_iff (lessUnsigned_eq_true _ _) o s, branchIf_completes_of_iff (not_lessUnsigned_eq_true _ _) o s⟩

/-- Settles O44: B is a jump without a link, BL one with its link in r1. -/
theorem branchAndLinkResults : Obligations.BranchAndLinkResults := fun s _ =>
  ⟨⟨_, rfl, setPc_goesOnlyTo s _⟩, ⟨_, rfl, writeGr_setPc_linksAndGoesTo s 1 _ _⟩⟩

/-- Settles O45: JIRL is a jump with a link, and its target is computed from the state before the link is written. -/
theorem jumpIndirectResult : Obligations.JumpIndirectResult := fun s rd _ _ =>
  ⟨_, rfl, writeGr_setPc_linksAndGoesTo s rd _ _⟩

end Settled

/-! PROOFS. The obligations of 43_load_store.md. What a load or a store does is said by the laws of the shared operations
(`loadTo_cases`, `storeFrom_cases`); what is added here is that an aligned access which the map allows completes. -/

namespace Sys2Proof.Machine

open Sys2Proof.Safety

/-! ## Accesses that complete -/

theorem aligned_one (a : Word) : Aligned a 1 := Nat.mod_one _

/-- Of the cases of a load only the one that completes is left where the address is aligned and readable (R160). -/
theorem loadTo_completes {s : State} {a : Word} {n : Nat} (good : Aligned a n)
    (mapped : Accessible s.platform .read a.toNat n) (rd : RegNum) (f : (Nat → Byte) → Nat → Word) :
    ∃ t, loadTo rd a n f s = .next t ∧ LoadsOnly s t rd a.toNat n (f s.readByte a.toNat) := by
  rcases loadTo_cases rd a n f s with ⟨bad, -⟩ | ⟨-, -, completes⟩ | ⟨-, r, ⟨k, hk, refuses⟩, -⟩
  · exact absurd good bad
  · exact ⟨_, completes, loaded_writeGr_advance_loadsOnly s rd a.toNat n _⟩
  · rw [mapped k hk] at refuses
    cases refuses

/-- The same of a store, where the address is aligned and writable (R160). -/
theorem storeFrom_completes {s : State} {a : Word} {n : Nat} (good : Aligned a n)
    (mapped : Accessible s.platform .write a.toNat n) (v : Word) :
    ∃ t, storeFrom a n v s = .next t ∧ StoresOnly s t a.toNat n v := by
  rcases storeFrom_cases a n v s with ⟨bad, -⟩ | ⟨-, -, completes⟩ | ⟨-, r, ⟨k, hk, refuses⟩, -⟩
  · exact absurd good bad
  · exact ⟨_, completes, stored_advance_storesOnly s a.toNat n v⟩
  · rw [mapped k hk] at refuses
    cases refuses

end Sys2Proof.Machine

section Settled

open Sys2Proof Sys2Proof.Machine Sys2Proof.Safety

/-- Settles O47: each is the shared load at its size, which completes or, at a misaligned address, has trapped before the
map is looked at. -/
theorem loadResults : Obligations.LoadResults := by
  rintro s rd rj si12 a rfl
  refine ⟨s.readByte_eq, fun mapped => ⟨?ldb, ?ldbu⟩, fun good mapped => ⟨?ldh, ?ldhu⟩, fun good mapped => ?ldw,
    fun bad => ⟨?ldhTraps, ?ldhuTraps⟩, fun bad => ?ldwTraps⟩
  case ldb => exact loadTo_completes (aligned_one _) mapped rd fun read a => sext (memRead8 read a)
  case ldbu => exact loadTo_completes (aligned_one _) mapped rd fun read a => zext (memRead8 read a)
  case ldh => exact loadTo_completes good mapped rd fun read a => sext (memRead16 read a)
  case ldhu => exact loadTo_completes good mapped rd fun read a => zext (memRead16 read a)
  case ldw => exact loadTo_completes good mapped rd memRead32
  case ldhTraps | ldhuTraps | ldwTraps => exact (misalignedDataAccessRaisesAle _ s).1 _ _ rfl bad

/-- Settles O48: each is the shared store at its size, which completes or, at a misaligned address, has trapped before the
map is looked at. -/
theorem storeResults : Obligations.StoreResults := by
  rintro s rd rj si12 a rfl
  refine ⟨fun mapped => ?stb, fun good mapped => ?sth, fun good mapped => ?stw, fun bad => ?sthTraps,
    fun bad => ?stwTraps⟩
  case stb => exact storeFrom_completes (aligned_one _) mapped (s.readGr rd)
  case sth | stw => exact storeFrom_completes good mapped (s.readGr rd)
  case sthTraps | stwTraps => exact (misalignedDataAccessRaisesAle _ s).1 _ _ rfl bad

/-- Settles O50: neither the hint nor the address is looked at, and the pc goes to the next instruction. -/
theorem preloadOnlyAdvances : Obligations.PreloadOnlyAdvances := fun s _ _ _ =>
  ⟨s.advance, rfl, setPc_goesOnlyTo s (s.pc + 4)⟩

end Settled

/-! PROOFS. The obligations of 44_atomic.md. LL.W and SC.W at an address they may access either complete or are refused for
the storage type, and what they leave behind when they complete is said once for each. That the word at LLaddr outlives
whatever comes between the two is a relation between states, which every foreign store, the environment and every
instruction but LL.W and SC.W respect. -/

namespace Sys2Proof.Machine

open Sys2Proof.Safety

/-! ## What LL.W and SC.W leave behind -/

/-- What `MemoryAfter` says of a state it says of every state with the same memory and devices. -/
theorem memoryAfter_congr {s t u : State} {a n : Nat} {v : Word} (after : MemoryAfter s t a n v) (mem : u.mem = t.mem)
    (unsynced : u.unsynced = t.unsynced) (devices : u.deviceAccesses = t.deviceAccesses) : MemoryAfter s u a n v where
  stored := by rw [mem]; exact after.stored
  others := by rw [mem]; exact after.others
  unsynced := unsynced.trans after.unsynced
  devices := devices.trans after.devices

/-- Everything an LL.W that completes does (R181). -/
theorem linked_loadsLinked (s : State) (rd : RegNum) (a : Word) :
    LoadsLinked s (((s.loaded a.toNat 4).setReservation true a).writeGr rd (memRead32 s.readByte a.toNat)).advance rd a := by
  refine ⟨fun r => ?_, ?_, ?_, ?_, ?_, ?_, fun b => ?_, ?_, ⟨?_, ?_, ?_, ?_, ?_⟩, ?_⟩ <;>
    simp [State.readGr_writeGr, DeviceAccessMade, memRead32]

/-- Everything an SC.W does that sees LLbit 1 and stores (R182, R185). -/
theorem finishScw_storesConditionally (s : State) (rd : RegNum) (a : Word) :
    ∃ t, finishScw rd true (s.stored a.toNat (storeBytes 4 (s.readGr rd))) = .next t ∧ StoresConditionally s t rd a := by
  refine ⟨_, rfl, memoryAfter_congr (stored_memoryAfter s a.toNat 4 (s.readGr rd)) ?_ ?_ ?_, fun r => ?_, ?_, ?_, ?_,
    ⟨?_, ?_, ?_, ?_, ?_⟩, ?_, ?_⟩ <;> simp [State.readGr_writeGr]

/-- Everything an SC.W does that sees LLbit 0 (R182, R185). -/
theorem finishScw_failsToStore (s : State) (rd : RegNum) : ∃ t, finishScw rd false s = .next t ∧ FailsToStore s t rd := by
  refine ⟨_, rfl, ⟨fun b => ?_, ?_, ?_⟩, fun r => ?_, ?_, ?_, ?_, ⟨?_, ?_, ?_, ?_, ?_⟩, ?_, ?_⟩ <;>
    simp [State.readGr_writeGr]

/-! ## Whether LL.W and SC.W complete -/

/-- Where every byte can be accessed, only the storage type is left to refuse LL.W and SC.W (R183). -/
theorem RefusesAtomic.of_accessible {p : Config.Platform} {kind : AccessKind} {a : Word} {r : Refusal}
    (refuses : RefusesAtomic p kind a r) (mapped : Accessible p kind a.toNat 4) :
    r = .llscUncached a ∧ ¬Cached p a.toNat 4 := by
  rcases refuses with ⟨k, hk, byte⟩ | ⟨rfl, -, uncached⟩
  · rw [mapped k hk] at byte
    cases byte
  · exact ⟨rfl, uncached⟩

section Completes

variable {s : State} {rj : RegNum} {x : BitVec 14} (good : Aligned (atomicAddress s rj x) 4)
include good

/-- An aligned LL.W at readable bytes completes where they are coherent cached, and else is refused. -/
theorem execLlw_of_accessible (mapped : Accessible s.platform .read (atomicAddress s rj x).toNat 4) (rd : RegNum) :
    (Cached s.platform (atomicAddress s rj x).toNat 4 ∧
      ∃ t, execLlw rd rj x s = .next t ∧ LoadsLinked s t rd (atomicAddress s rj x)) ∨
    (¬Cached s.platform (atomicAddress s rj x).toNat 4 ∧
      execLlw rd rj x s = .refused (.llscUncached (atomicAddress s rj x))) := by
  rcases execLlw_cases rd rj x s with ⟨bad, -⟩ | ⟨-, -, cached, completes⟩ | ⟨-, r, refused, refuses⟩
  · exact absurd good bad
  · exact .inl ⟨cached, _, completes, linked_loadsLinked s rd _⟩
  · obtain ⟨rfl, uncached⟩ := refuses.of_accessible mapped
    exact .inr ⟨uncached, refused⟩

/-- The same of an SC.W with LLbit 1 at LLaddr, at writable bytes. -/
theorem execScw_of_accessible (seen : s.llbit = true) (same : atomicAddress s rj x = s.lladdr)
    (mapped : Accessible s.platform .write (atomicAddress s rj x).toNat 4) (rd : RegNum) :
    (Cached s.platform (atomicAddress s rj x).toNat 4 ∧
      ∃ t, execScw rd rj x s = .next t ∧ StoresConditionally s t rd (atomicAddress s rj x)) ∨
    (¬Cached s.platform (atomicAddress s rj x).toNat 4 ∧
      execScw rd rj x s = .refused (.llscUncached (atomicAddress s rj x))) := by
  rcases execScw_cases rd rj x s with ⟨bad, -⟩ | ⟨-, -, -, -, cached, stores⟩ | ⟨-, clear, -⟩ | ⟨-, -, other, -⟩ |
    ⟨-, -, -, r, refused, refuses⟩
  · exact absurd good bad
  · rw [stores]
    exact .inl ⟨cached, finishScw_storesConditionally s rd _⟩
  · simp [seen] at clear
  · exact absurd same other
  · obtain ⟨rfl, uncached⟩ := refuses.of_accessible mapped
    exact .inr ⟨uncached, refused⟩

/-- An aligned SC.W with LLbit 0 looks at nothing else. -/
theorem execScw_of_llbit_false (clear : s.llbit = false) (rd : RegNum) : execScw rd rj x s = finishScw rd false s := by
  simp [execScw, (misaligned_eq_false _ 4).mpr good, clear]

/-- An aligned SC.W with LLbit 1 compares its address with LLaddr before it looks at the map. -/
theorem execScw_of_lladdr_ne (seen : s.llbit = true) (other : atomicAddress s rj x ≠ s.lladdr) (rd : RegNum) :
    execScw rd rj x s = .refused (.scAddress (atomicAddress s rj x) s.lladdr) := by
  simp [execScw, (misaligned_eq_false _ 4).mpr good, seen, other]

end Completes

/-- An LL.W that completes was aligned. -/
theorem execLlw_completed {rd rj : RegNum} {x : BitVec 14} {s t : State} (h : execLlw rd rj x s = .next t)
    (completes : t.trap = none) : Aligned (atomicAddress s rj x) 4 ∧ LoadsLinked s t rd (atomicAddress s rj x) := by
  rcases execLlw_cases rd rj x s with ⟨-, e⟩ | ⟨good, -, -, e⟩ | ⟨-, r, e, -⟩ <;> rw [e] at h <;> cases h
  · cases completes
  · exact ⟨good, linked_loadsLinked s rd _⟩

/-- An SC.W that completes with LLbit 1 has stored, at LLaddr (R182, R183). -/
theorem execScw_completed_of_llbit {rd rj : RegNum} {x : BitVec 14} {s t : State} (h : execScw rd rj x s = .next t)
    (completes : t.trap = none) (seen : s.llbit = true) : StoresConditionally s t rd s.lladdr := by
  rcases execScw_cases rd rj x s with ⟨-, e⟩ | ⟨-, -, same, -, -, e⟩ | ⟨-, clear, -⟩ | ⟨-, -, -, e⟩ | ⟨-, -, -, r, e, -⟩
  · cases e.symm.trans h
    cases completes
  · obtain ⟨u, next, stores⟩ := finishScw_storesConditionally s rd (atomicAddress s rj x)
    cases (next.symm.trans e.symm).trans h
    rwa [← same]
  · simp [seen] at clear
  · cases e.symm.trans h
  · cases e.symm.trans h

/-! ## Stores to another word -/

/-- An aligned access lies within one word, so it has no byte of another one (R53). -/
theorem outside_of_other_word {a n b : Nat} (size : n = 1 ∨ n = 2 ∨ n = 4) (aligned : a % n = 0) (other : a / 4 ≠ b / 4) :
    b < a ∨ a + n ≤ b := by
  rcases size with rfl | rfl | rfl <;> omega

theorem dataAccess_size (i : Instr) (s : State) (a : Word) (n : Nat) (h : dataAccess s i = some (a, n)) :
    n = 1 ∨ n = 2 ∨ n = 4 := by
  cases i <;> cases h <;> decide

/-- An instruction leaves a byte of a word that its store does not begin in: a misaligned store traps, and an aligned one
lies in its own word (R43, R53). -/
theorem exec_read_of_other_word (i : Instr) (s t : State) (h : exec i s = .next t) (b : Nat)
    (other : ∀ a n, isStore i = true → dataAccess s i = some (a, n) → a.toNat / 4 ≠ b / 4) :
    Memory.read t.mem b = Memory.read s.mem b := by
  cases access : dataAccess s i with
  | none => exact exec_read_of_outside i s t h b fun _ _ _ own => by simp [access] at own
  | some made =>
    obtain ⟨a, n⟩ := made
    by_cases good : Aligned a n
    · refine exec_read_of_outside i s t h b fun a' n' store own => ?_
      cases access.symm.trans own
      exact outside_of_other_word (dataAccess_size i s a n access) good (other a n store access)
    · cases (exec_of_misaligned i s a n access good).symm.trans h
      rfl

/-- A store of another agent leaves a byte of a word that it does not begin in (R54). -/
theorem ForeignStore.covers_of_other_word {c : ForeignStore} {b : Nat} (access : c.isAccess = true)
    (other : c.addr / 4 ≠ b / 4) : c.covers b = false := by
  obtain ⟨size, aligned⟩ := c.isAccess_iff.mp access
  exact (c.covers_eq_false b).mpr (outside_of_other_word size aligned other)

/-! ## The word at LLaddr while LLbit is set -/

/-- From `s` to `t` LLaddr has stayed and LLbit has not been set; and if LLbit is still set, no byte of the word at LLaddr
has changed (R186, R187). -/
structure KeepsReservedWord (s t : State) : Prop where
  platform : t.platform = s.platform
  lladdr : t.lladdr = s.lladdr
  llbit : t.llbit = true → s.llbit = true
  bytes : t.llbit = true → ∀ b, b / 4 = s.lladdr.toNat / 4 → Memory.read t.mem b = Memory.read s.mem b

namespace KeepsReservedWord

theorem refl (s : State) : KeepsReservedWord s s := ⟨rfl, rfl, id, fun _ _ _ => rfl⟩

theorem trans {s t u : State} (first : KeepsReservedWord s t) (second : KeepsReservedWord t u) :
    KeepsReservedWord s u where
  platform := second.platform.trans first.platform
  lladdr := second.lladdr.trans first.lladdr
  llbit linked := first.llbit (second.llbit linked)
  bytes linked b reserved := by
    have inT : b / 4 = t.lladdr.toNat / 4 := by rw [first.lladdr, reserved]
    exact (second.bytes linked b inT).trans (first.bytes (second.llbit linked) b reserved)

/-- A store of another agent to the word clears LLbit, and one to another word leaves its bytes (R186 item 1). -/
theorem of_foreignWrite (s : State) (c : ForeignStore) : KeepsReservedWord s (foreignWrite s c) := by
  rcases foreignWrite_cases s c with ⟨arrives, made⟩ | ⟨-, unchanged⟩
  · have linked_iff : (foreignWrite s c).llbit = true ↔ s.llbit = true ∧ c.addr / 4 ≠ s.lladdr.toNat / 4 := by
      simp [made, inReservation_eq_false]
    refine ⟨foreignWrite_platform s c, foreignWrite_lladdr s c, fun linked => (linked_iff.mp linked).1,
      fun linked b reserved => foreignWrite_read_out s c b fun _ _ => ?_⟩
    obtain ⟨-, other⟩ := linked_iff.mp linked
    obtain ⟨access, -⟩ := (c.arrives_iff _).mp arrives
    exact ForeignStore.covers_of_other_word access (by rwa [reserved])
  · rw [unchanged]
    exact refl s

theorem of_foreignWrites (s : State) (cs : List ForeignStore) : KeepsReservedWord s (foreignWrites s cs) := by
  induction cs generalizing s with
  | nil => exact refl s
  | cons c cs ih => exact (of_foreignWrite s c).trans (ih _)

/-- The environment's own choice can only clear LLbit (R186 item 2). -/
theorem of_environmentWith (clears : Bool) (ticks : DWord) (s : State) :
    KeepsReservedWord s (environmentWith clears ticks s) := by
  have arrived := of_foreignWrites s (s.incoming.headD [])
  have still (linked : (environmentWith clears ticks s).llbit = true) :
      (foreignWrites s (s.incoming.headD [])).llbit = true := by
    rw [environmentWith_llbit, Bool.and_eq_true] at linked
    exact linked.1
  exact ⟨arrived.platform, arrived.lladdr, fun linked => arrived.llbit (still linked),
    fun linked => arrived.bytes (still linked)⟩

/-- An instruction between an LL.W and its SC.W leaves the reservation, and the word unless it stores there (R184). -/
theorem of_exec {i : Instr} {s t : State} (h : exec i s = .next t) (notLlw : ∀ rd rj x, i ≠ .llw rd rj x)
    (notScw : ∀ rd rj x, i ≠ .scw rd rj x)
    (other : ∀ a n, isStore i = true → dataAccess s i = some (a, n) → a.toNat / 4 ≠ s.lladdr.toNat / 4) :
    KeepsReservedWord s t := by
  have reservation := exec_sameReservation i s t h notLlw notScw
  refine ⟨(exec_sameSystem i s t h).platform, reservation.lladdr, fun linked => reservation.llbit ▸ linked,
    fun _ b reserved => exec_read_of_other_word i s t h b fun a n store access => ?_⟩
  rw [reserved]
  exact other a n store access

theorem of_betweenLlAndSc {s t : State} (h : betweenLlAndSc s t) : KeepsReservedWord s t := by
  obtain ⟨clears, ticks, i, runs, notLlw, notScw, other⟩ := h
  have acted := of_environmentWith clears ticks s
  refine acted.trans (of_exec runs notLlw notScw fun a n store access => ?_)
  rw [acted.lladdr]
  exact other a n store access

/-- However many steps lie between, the word is kept while LLbit stays set. -/
theorem of_steps {s t : State} (steps : Relation.ReflTransGen betweenLlAndSc s t) : KeepsReservedWord s t := by
  induction steps with
  | refl => exact refl s
  | tail _ last ih => exact ih.trans (of_betweenLlAndSc last)

end KeepsReservedWord

end Sys2Proof.Machine

section Settled

open Sys2Proof Sys2Proof.Machine Sys2Proof.Safety

/-- Settles O51: at a coherent cached address an aligned and mapped LL.W is not refused. -/
theorem loadLinkedResult : Obligations.LoadLinkedResult := by
  rintro s rd rj x a rfl good mapped cached
  rcases execLlw_of_accessible good mapped rd with ⟨-, completes⟩ | ⟨uncached, -⟩
  · exact completes
  · exact absurd cached uncached

/-- Settles O52: with LLbit 1 as for LL.W, and with LLbit 0 nothing but the alignment is asked. -/
theorem storeConditionalResult : Obligations.StoreConditionalResult := by
  rintro s rd rj x a rfl good
  refine ⟨fun seen same mapped cached => ?stores, fun clear => ?fails⟩
  case stores =>
    rcases execScw_of_accessible good seen same.symm mapped rd with ⟨-, completes⟩ | ⟨uncached, -⟩
    · exact completes
    · exact absurd cached uncached
  case fails =>
    obtain ⟨t, next, fails⟩ := finishScw_failsToStore s rd
    exact ⟨t, (execScw_of_llbit_false good clear rd).trans next, fails⟩

/-- Settles O54: LLaddr is compared before the map is looked at, and off coherent cached storage an access that the map
allows is refused for its storage type. -/
theorem atomicContractIsRefused : Obligations.AtomicContractIsRefused := by
  rintro s rd rj x a rfl good
  refine ⟨fun seen other => execScw_of_lladdr_ne good seen other rd, fun uncached => ⟨fun mapped => ?llw,
    fun mapped seen same => ?scw⟩⟩
  case llw =>
    rcases execLlw_of_accessible good mapped rd with ⟨cached, -⟩ | ⟨-, refused⟩
    · exact absurd cached uncached
    · exact refused
  case scw =>
    rcases execScw_of_accessible good seen same mapped rd with ⟨cached, -⟩ | ⟨-, refused⟩
    · exact absurd cached uncached
    · exact refused

/-- Settles O55: an SC.W that returns 1 saw LLbit 1, so from the LL.W to it the word at LLaddr was kept, and it stored
there. -/
theorem atomicPairExcludesForeignWrites : Obligations.AtomicPairExcludesForeignWrites := by
  rintro s t u e v rd rj rd' rj' x x' clears ticks loads loaded steps rfl stores stored - one storage k hk
  obtain ⟨good, linked⟩ := execLlw_completed loads loaded
  have kept := (KeepsReservedWord.of_steps steps).trans (.of_environmentWith clears ticks u)
  have seen : (environmentWith clears ticks u).llbit = true := by
    obtain ⟨registers, -⟩ := execScw_completed rd' rj' x' _ v stores stored
    have returned := registers rd'
    by_contra clear
    simp [one, clear] at returned
  have written := execScw_completed_of_llbit stores stored seen
  refine ⟨?kept, ?written⟩
  case kept =>
    have aligned : t.lladdr.toNat % 4 = 0 := linked.lladdr ▸ good
    rw [kept.bytes seen _ (by omega), linked.bytes]
  case written =>
    rw [← kept.lladdr]
    refine written.memory.stored k hk ?_
    rw [kept.lladdr, kept.platform, linked.system.platform]
    exact storage k hk

end Settled

/-! PROOFS. The obligations of 45_barrier.md. Both barriers complete whatever their hint. That a fetch misses no store is said
byte by byte: no store is left after an IBAR, and then the environment and every instruction keep a byte synchronised that
they do not write. -/

namespace Sys2Proof.Safety

open Sys2Proof.Machine

/-- The frame of an IBAR (R192). -/
theorem syncsFetch_ibar (s : State) : SyncsFetch s ({ s with unsynced := [] } : State).advance :=
  ⟨rfl, fun _ => rfl, rfl, fun _ => rfl, rfl, ⟨rfl, rfl⟩, ⟨rfl, rfl, rfl, rfl, rfl⟩, rfl, rfl⟩

/-! ## A byte that stays synchronised -/

theorem FetchSynced.of_syncsFetch {s t : State} (syncs : SyncsFetch s t) (a : Nat) : FetchSynced t a := by
  simp [FetchSynced, syncs.unsynced]

section FetchSynced

variable {s : State} {b : Nat} (synced : FetchSynced s b)
include synced

theorem FetchSynced.of_subset {t : State} (unsynced : ∀ u ∈ t.unsynced, u ∈ s.unsynced) : FetchSynced t b :=
  fun u hu => synced u (unsynced u hu)

/-- Another agent's store unsynchronises only bytes that it covers (R64; log 19). -/
theorem FetchSynced.environment (uncovered : ∀ c ∈ s.incoming.headD [], c.covers b = false) :
    FetchSynced (environment s) b := by
  intro u hu
  rcases mem_environment_unsynced s u hu with before | ⟨c, hc, addr, length⟩
  · exact synced u before
  · rw [UnsyncedStore.oldByte_eq_none, addr, length]
    exact (c.covers_eq_false b).mp (uncovered c hc)

/-- The core's own store unsynchronises only bytes that it writes (R64). -/
theorem FetchSynced.stored (a : Nat) (bs : List Byte) (outside : b < a ∨ a + bs.length ≤ b) :
    FetchSynced (s.stored a bs) b := by
  intro u hu
  rcases mem_stored_unsynced s a bs u hu with rfl | before
  · rw [UnsyncedStore.oldByte_eq_none]
    simpa using outside
  · exact synced u before

/-- Of the instructions only ST.B, ST.H, ST.W and an SC.W that stores add to what a fetch may miss (R64). -/
theorem FetchSynced.exec {i : Instr} {t : State} (h : exec i s = .next t)
    (outside : ∀ a n, isStore i = true → dataAccess s i = some (a, n) → b < a.toNat ∨ a.toNat + n ≤ b) :
    FetchSynced t b := by
  cases exec_effect i s t h with
  | store a n v pos dest access isStore =>
    exact (synced.stored a.toNat (storeBytes n v) (by simpa using outside a n isStore access)).of_subset fun _ hu => hu
  | stored rd rj x eq =>
    subst eq
    exact (synced.stored (atomicAddress s rj x).toNat (storeBytes 4 (s.readGr rd))
      (by simpa using outside _ 4 rfl rfl)).of_subset (by simp)
  | sync => exact .of_syncsFetch (syncsFetch_ibar s) b
  | _ => exact synced.of_subset (by simp)

end FetchSynced

end Sys2Proof.Safety

section Settled

open Sys2Proof Sys2Proof.Machine Sys2Proof.Safety

/-- Settles O56: neither barrier looks at its hint, and only IBAR touches the stores that a fetch may miss. -/
theorem barrierResults : Obligations.BarrierResults := fun s _ =>
  ⟨⟨s.advance, rfl, setPc_goesOnlyTo s (s.pc + 4)⟩, ⟨_, rfl, syncsFetch_ibar s⟩⟩

/-- Settles O57: an IBAR synchronises every byte, a step keeps a byte synchronised in its two parts, the environment and the
instruction, and a fetch of a synchronised byte of storage sees memory. -/
theorem fetchAfterIbarSeesStores : Obligations.FetchAfterIbarSeesStores := by
  refine ⟨fun s t hint h a => ?afterIbar, fun s t i a synced uncovered runs outside => ?keptByStep, fetchByte_synced⟩
  case afterIbar =>
    obtain ⟨-, u, runs, syncs⟩ := barrierResults s hint
    cases runs.symm.trans h
    exact .of_syncsFetch syncs a
  case keptByStep => exact (synced.environment uncovered).exec runs outside

end Settled

/-! PROOFS. The obligations of 46_misc.md. SYSCALL and BREAK are the law of a raised exception, the counter reads the law of a
register write; what is added here is that a write to r0 does not depend on the word. -/

namespace Sys2Proof.Machine

/-- A write to r0 only advances, whatever the word (R21). -/
theorem writeAndAdvance_zero (v : Word) (s : State) : writeAndAdvance 0 v s = .next s.advance := by
  simp [writeAndAdvance_eq]

end Sys2Proof.Machine

section Settled

open Sys2Proof Sys2Proof.Machine Sys2Proof.Safety

/-- Settles O59: both raise their exception with nothing to decide first, neither the code nor the level. -/
theorem syscallAndBreakTrap : Obligations.SyscallAndBreakTrap := fun s code =>
  ⟨⟨raise (.sys code) s, rfl, raise_takesTrap (.sys code) s⟩, ⟨raise (.brk code) s, rfl, raise_takesTrap (.brk code) s⟩⟩

/-- Settles O60: each writes its word and advances. The word that RDCNTID r0 shares with RDCNTVL.W r0 (R79) has one meaning,
for the counter and the Counter ID are both written to r0. -/
theorem counterReadResults : Obligations.CounterReadResults := by
  intro s r
  refine ⟨?low, ?high, ?identity, ?shared⟩
  case low => exact writeAndAdvance_completes r (lowWord s.stableCounter) s
  case high => exact writeAndAdvance_completes r (highWord s.stableCounter) s
  case identity => exact writeAndAdvance_completes r s.counterId s
  case shared =>
    calc exec (.rdcntid 0) s
      _ = .next s.advance := writeAndAdvance_zero s.counterId s
      _ = exec (.rdcntvlw 0) s := (writeAndAdvance_zero (lowWord s.stableCounter) s).symm

end Settled

/-! PROOFS. The obligations of 60_exceptions.md and 70_reset_and_hazards.md. That the privilege level is read by nothing is
said as each operation's commuting with a change of the level; what traps is read off the shapes of a next state; what is
refused depends on the shape of the data access, and without one nothing is. -/

namespace Sys2Proof.Machine

open Sys2Proof.Safety

/-! ## Another privilege level (R240) -/

section WithPlv

variable (p : Plv) (s : State)

@[simp] theorem withPlv_platform : (withPlv p s).platform = s.platform := rfl
@[simp] theorem withPlv_llbit : (withPlv p s).llbit = s.llbit := rfl
@[simp] theorem withPlv_lladdr : (withPlv p s).lladdr = s.lladdr := rfl
@[simp] theorem withPlv_incoming : (withPlv p s).incoming = s.incoming := rfl
@[simp] theorem withPlv_trap : (withPlv p s).trap = s.trap := rfl

@[simp] theorem atomicAddress_withPlv (rj : RegNum) (x : BitVec 14) :
    atomicAddress (withPlv p s) rj x = atomicAddress s rj x := rfl

@[simp] theorem pcMisaligned_withPlv : pcMisaligned (withPlv p s) = pcMisaligned s := rfl

@[simp] theorem fetchWord_withPlv : fetchWord (withPlv p s) = fetchWord s := rfl

theorem State.writeGr_withPlv (r : RegNum) (v : Word) : (withPlv p s).writeGr r v = withPlv p (s.writeGr r v) := by
  unfold State.writeGr
  split <;> rfl

theorem writeAndAdvance_withPlv (rd : RegNum) (v : Word) :
    writeAndAdvance rd v (withPlv p s) = mapNext (withPlv p) (writeAndAdvance rd v s) := by
  rw [writeAndAdvance_eq, State.writeGr_withPlv]
  rfl

theorem divideTo_withPlv (rd : RegNum) (d v : Word) (unfixed : Bool) :
    divideTo rd d v unfixed (withPlv p s) = mapNext (withPlv p) (divideTo rd d v unfixed s) := by
  unfold divideTo
  split
  · exact writeAndAdvance_withPlv p s.drawn rd (Config.anyWord s.draws)
  · exact writeAndAdvance_withPlv p s rd v

theorem branchIf_withPlv (c : Bool) (o : BitVec 16) :
    branchIf c o (withPlv p s) = mapNext (withPlv p) (branchIf c o s) := by
  cases c <;> rfl

theorem loadTo_withPlv (rd : RegNum) (a : Word) (n : Nat) (f : (Nat → Byte) → Nat → Word) :
    loadTo rd a n f (withPlv p s) = mapNext (withPlv p) (loadTo rd a n f s) := by
  unfold loadTo
  rw [withPlv_platform]
  split
  · rfl
  · split
    · rfl
    · exact writeAndAdvance_withPlv p (s.loaded a.toNat n) rd (f s.readByte a.toNat)

theorem storeFrom_withPlv (a : Word) (n : Nat) (v : Word) :
    storeFrom a n v (withPlv p s) = mapNext (withPlv p) (storeFrom a n v s) := by
  unfold storeFrom
  rw [withPlv_platform]
  split
  · rfl
  · split <;> rfl

theorem execLlw_withPlv (rd rj : RegNum) (x : BitVec 14) :
    execLlw rd rj x (withPlv p s) = mapNext (withPlv p) (execLlw rd rj x s) := by
  simp only [execLlw]
  rw [atomicAddress_withPlv, withPlv_platform]
  split
  · rfl
  · split
    · rfl
    · split
      · exact writeAndAdvance_withPlv p ((s.loaded _ 4).setReservation true _) rd _
      · rfl

theorem finishScw_withPlv (rd : RegNum) (seen : Bool) :
    finishScw rd seen (withPlv p s) = mapNext (withPlv p) (finishScw rd seen s) :=
  writeAndAdvance_withPlv p (s.drawn.setReservation (Config.anyBit s.draws) s.lladdr) rd _

theorem execScw_withPlv (rd rj : RegNum) (x : BitVec 14) :
    execScw rd rj x (withPlv p s) = mapNext (withPlv p) (execScw rd rj x s) := by
  simp only [execScw]
  rw [atomicAddress_withPlv, withPlv_platform, withPlv_llbit, withPlv_lladdr]
  split
  · rfl
  · split
    · split
      · split
        · rfl
        · split
          · exact finishScw_withPlv p (s.stored _ (storeBytes 4 (s.readGr rd))) rd true
          · rfl
      · rfl
    · exact finishScw_withPlv p s rd false

/-- An instruction does the same at every level. -/
theorem exec_withPlv (i : Instr) : exec i (withPlv p s) = mapNext (withPlv p) (exec i s) := by
  cases i with
  | beq _ _ o | bne _ _ o | blt _ _ o | bge _ _ o | bltu _ _ o | bgeu _ _ o => exact branchIf_withPlv p s _ o
  | bl | jirl =>
    simp only [exec, execBl, execJirl, State.writeGr_withPlv]
    rfl
  | divw rd | modw rd | divwu rd | modwu rd => exact divideTo_withPlv p s rd _ _ _
  | ldb rd | ldh rd | ldw rd | ldbu rd | ldhu rd =>
    simp only [exec, execLdb, execLdh, execLdw, execLdbu, execLdhu]
    exact loadTo_withPlv p s rd _ _ _
  | stb | sth | stw => exact storeFrom_withPlv p s _ _ _
  | llw rd rj x => exact execLlw_withPlv p s rd rj x
  | scw rd rj x => exact execScw_withPlv p s rd rj x
  | b | preld | dbar | ibar | syscall | brk => rfl
  | rdcntid rd | rdcntvlw rd | rdcntvhw rd | lu12iw rd | pcaddu12i rd | addw rd | subw rd | addiw rd | slt rd | sltu rd
  | slti rd | sltui rd | and rd | or rd | nor rd | xor rd | andi rd | ori rd | xori rd | mulw rd | mulhw rd | mulhwu rd
  | sllw rd | srlw rd | sraw rd | slliw rd | srliw rd | sraiw rd => exact writeAndAdvance_withPlv p s rd _

theorem foreignWrite_withPlv (c : ForeignStore) : foreignWrite (withPlv p s) c = withPlv p (foreignWrite s c) := by
  unfold foreignWrite
  rw [withPlv_platform]
  split <;> rfl

theorem foreignWrites_withPlv (cs : List ForeignStore) :
    foreignWrites (withPlv p s) cs = withPlv p (foreignWrites s cs) :=
  List.foldl_hom (withPlv p) fun s c => foreignWrite_withPlv p s c

theorem environment_withPlv : environment (withPlv p s) = withPlv p (environment s) := by
  simp only [environment, environmentWith, withPlv_incoming, foreignWrites_withPlv]
  rfl

theorem decodeAndExec_withPlv (w : Word) :
    decodeAndExec w (withPlv p s) = mapNext (withPlv p) (decodeAndExec w s) := by
  unfold decodeAndExec
  rw [withPlv_platform]
  split
  · exact exec_withPlv p s _
  · split <;> rfl

theorem fetchAndExec_withPlv : fetchAndExec (withPlv p s) = mapNext (withPlv p) (fetchAndExec s) := by
  unfold fetchAndExec
  rw [pcMisaligned_withPlv, fetchWord_withPlv]
  split
  · rfl
  · split
    · rfl
    · exact decodeAndExec_withPlv p s _

/-- A step does the same at every level, the environment's part included. -/
theorem step_withPlv : step (withPlv p s) = mapNext (withPlv p) (step s) := by
  unfold step runStep
  rw [withPlv_trap, withPlv_platform, environment_withPlv]
  split
  · rfl
  · split
    · rfl
    · exact fetchAndExec_withPlv p (environment s)

end WithPlv

/-! ## Traps (R221 to R225, R230) -/

/-- An instruction that traps has taken its exception and has done nothing else. -/
theorem exec_eq_raise_of_trap (i : Instr) (s t : State) (r : Trap) (running : s.trap = none) (h : exec i s = .next t)
    (traps : t.trap = some r) : t = raise r.exception s := by
  rcases exec_pc_cases i s t h with ⟨-, e, rfl⟩ | ⟨trap, -⟩
  · cases traps
    rfl
  · simp [trap, running] at traps

/-- A step that traps has taken its exception after the environment and has done nothing else. -/
theorem step_eq_raise_of_trap (s t : State) (r : Trap) (h : step s = .next t) (traps : t.trap = some r) :
    t = raise r.exception (environment s) := by
  obtain ⟨running, -, ⟨-, rfl⟩ | ⟨w, -, -, ⟨i, -, runs⟩ | ⟨-, -, rfl⟩⟩⟩ := step_next_cases s t h
  · cases traps
    rfl
  · exact exec_eq_raise_of_trap i _ t r (by simpa using running) runs traps
  · cases traps
    rfl

/-- The record of a trap taken from a state has that state's pc, and all else is that state's (R230). -/
theorem epc_and_takesTrap_of_eq_raise {s t : State} {r : Trap} (taken : t = raise r.exception s)
    (traps : t.trap = some r) : r.epc = s.pc ∧ TakesTrap s t r.exception := by
  subst taken
  exact ⟨congrArg Trap.epc (Option.some.inj traps).symm, raise_takesTrap r.exception s⟩

/-- What an instruction raises names the instruction: SYS is a SYSCALL's and BRK a BREAK's, with its code, ALE that of a
misaligned data access, with its address (D28). -/
theorem exec_trap_source (i : Instr) (s t : State) (e : Exception) (epc : Word) (running : s.trap = none)
    (h : exec i s = .next t) (traps : t.trap = some ⟨e, epc⟩) :
    (∃ c, i = .syscall c ∧ e = .sys c) ∨ (∃ c, i = .brk c ∧ e = .brk c) ∨
    ∃ a n, e = .ale a ∧ dataAccess s i = some (a, n) ∧ ¬Aligned a n := by
  cases exec_effect i s t h with
  | call e dest access store source =>
    cases traps
    exact source.imp_right .inl
  | misaligned a n access bad =>
    cases traps
    exact .inr (.inr ⟨a, n, rfl, access, bad⟩)
  | _ => simp [running] at traps

/-! ## What stops an instruction or a step -/

theorem decodeAndExec_ne_fault (w : Word) (s : State) (f : Fault) : decodeAndExec w s ≠ .fault f := by
  unfold decodeAndExec
  split
  · exact exec_ne_fault _ s f
  · split <;> exact nofun

theorem fetchAndExec_ne_fault (s : State) (f : Fault) : fetchAndExec s ≠ .fault f := by
  unfold fetchAndExec
  split
  · exact nofun
  · split
    · exact nofun
    · exact decodeAndExec_ne_fault _ s f

/-- The step after a trap is the fault that names it (R231; log 11). -/
theorem step_of_ended (s : State) (r : Trap) (ended : EndedIn s r) : step s = .fault (.trapped r) := by
  have ended : s.trap = some r := ended
  simp only [step, ended]

/-- Before a trap no step faults. -/
theorem step_ne_fault (s : State) (running : s.trap = none) (f : Fault) : step s ≠ .fault f := by
  simp only [step, running, runStep]
  split
  · exact nofun
  · exact fetchAndExec_ne_fault _ f

/-- An instruction that makes no data access is never refused (R100). -/
theorem exec_ne_refused_of_no_dataAccess (i : Instr) (s : State) (noAccess : dataAccess s i = none) (r : Refusal) :
    exec i s ≠ .refused r := by
  intro h
  cases i with
  | ldb | ldh | ldw | ldbu | ldhu | stb | sth | stw | llw | scw => cases noAccess
  | divw rd | modw rd | divwu rd | modwu rd =>
    obtain ⟨t, completes, -⟩ := divideTo_completes rd _ _ _ s
    cases completes.symm.trans h
  | _ => cases h

/-- Why an instruction may be refused at its data access: a byte that may not be read or written, LL.W or SC.W off
coherent cached memory, SC.W away from LLaddr (R183, R229). -/
def RefusesAccess (i : Instr) (s : State) (a : Word) (n : Nat) (r : Refusal) : Prop :=
  (∃ k, k < n ∧ byteRefusal s.platform (accessKind i) (a.toNat + k) = some r) ∨
  (r = .llscUncached a ∧ ¬Cached s.platform a.toNat n ∧
    ((∃ rd rj x, i = .llw rd rj x) ∨ ∃ rd rj x, i = .scw rd rj x ∧ s.llbit = true)) ∨
  (r = .scAddress a s.lladdr ∧ a ≠ s.lladdr ∧ ∃ rd rj x, i = .scw rd rj x ∧ s.llbit = true)

theorem refusesAccess_of_llw {rd rj : RegNum} {x : BitVec 14} {s : State} {r : Refusal}
    (h : execLlw rd rj x s = .refused r) : RefusesAccess (.llw rd rj x) s (atomicAddress s rj x) 4 r := by
  rcases execLlw_cases rd rj x s with ⟨-, e⟩ | ⟨-, -, -, e⟩ | ⟨-, q, e, refuses⟩ <;> cases e.symm.trans h
  rcases refuses with byte | ⟨rfl, -, uncached⟩
  · exact .inl byte
  · exact .inr (.inl ⟨rfl, uncached, .inl ⟨rd, rj, x, rfl⟩⟩)

theorem refusesAccess_of_scw {rd rj : RegNum} {x : BitVec 14} {s : State} {r : Refusal}
    (h : execScw rd rj x s = .refused r) : RefusesAccess (.scw rd rj x) s (atomicAddress s rj x) 4 r := by
  rcases execScw_cases rd rj x s with ⟨-, e⟩ | ⟨-, -, -, -, -, e⟩ | ⟨-, -, e⟩ | ⟨-, seen, other, e⟩ |
    ⟨-, seen, -, q, e, refuses⟩ <;> cases e.symm.trans h
  · exact .inr (.inr ⟨rfl, other, rd, rj, x, rfl, seen⟩)
  · rcases refuses with byte | ⟨rfl, -, uncached⟩
    · exact .inl byte
    · exact .inr (.inl ⟨rfl, uncached, .inr ⟨rd, rj, x, rfl, seen⟩⟩)

/-- A refused data access has one of the reasons, whichever of the four shapes of a data access it is. -/
theorem refusesAccess_of_exec {i : Instr} {s : State} {a : Word} {n : Nat} {r : Refusal}
    (access : dataAccess s i = some (a, n)) (h : exec i s = .refused r) : RefusesAccess i s a n r := by
  rcases exec_dataAccess_cases i s a n access with ⟨kind, rd, f, e⟩ | ⟨kind, v, e⟩ | ⟨rd, rj, x, rfl, rfl, rfl⟩ |
    ⟨rd, rj, x, rfl, rfl, rfl⟩
  · rw [e] at h
    rcases loadTo_cases rd a n f s with ⟨-, e⟩ | ⟨-, -, e⟩ | ⟨-, q, byte, e⟩ <;> cases e.symm.trans h
    exact .inl (kind ▸ byte)
  · rw [e] at h
    rcases storeFrom_cases a n v s with ⟨-, e⟩ | ⟨-, -, e⟩ | ⟨-, q, byte, e⟩ <;> cases e.symm.trans h
    exact .inl (kind ▸ byte)
  · exact refusesAccess_of_llw h
  · exact refusesAccess_of_scw h

/-- An access that is refused was aligned, for a misaligned one takes ALE (R53). -/
theorem aligned_of_exec_refused {i : Instr} {s : State} {a : Word} {n : Nat} {r : Refusal}
    (access : dataAccess s i = some (a, n)) (h : exec i s = .refused r) : Aligned a n := by
  by_contra bad
  cases (exec_of_misaligned i s a n access bad).symm.trans h

end Sys2Proof.Machine

section Settled

open Sys2Proof Sys2Proof.Machine Sys2Proof.Safety

/-- Settles O19: each shared operation of the instructions, the environment and the fetch commutes with a change of the
level. -/
theorem privilegeLevelIsNeverRead : Obligations.PrivilegeLevelIsNeverRead :=
  fun s p => ⟨exec_withPlv p s, step_withPlv p s⟩

/-- Settles O21: what traps, an instruction or a step, is the taking of an exception and nothing beside it. -/
theorem trapIsPrecise : Obligations.TrapIsPrecise := by
  refine ⟨fun i s t r running h traps => ?_, fun s t r h traps => ?_⟩
  · exact epc_and_takesTrap_of_eq_raise (exec_eq_raise_of_trap i s t r running h traps) traps
  · simpa using epc_and_takesTrap_of_eq_raise (step_eq_raise_of_trap s t r h traps) traps

/-- Settles O22: a step raises ADEF before the fetch, INE at a listed word, and else what its instruction raises. -/
theorem exceptionsHaveTheListedSources : Obligations.ExceptionsHaveTheListedSources := by
  intro s t e epc h traps
  obtain ⟨running, -, ⟨bad, rfl⟩ | ⟨w, -, fetched, ⟨i, decoded, runs⟩ | ⟨unlisted, listed, rfl⟩⟩⟩ := step_next_cases s t h
  · cases traps
    exact ⟨rfl, bad⟩
  · rcases exec_trap_source i _ t e epc (by simpa using running) runs traps with ⟨c, rfl, rfl⟩ | ⟨c, rfl, rfl⟩ |
      ⟨a, n, rfl, access, bad⟩
    · exact ⟨w, fetched, decoded⟩
    · exact ⟨w, fetched, decoded⟩
    · exact ⟨w, i, n, fetched, decoded, access, bad⟩
  · cases traps
    exact ⟨fetched, unlisted, listed⟩

/-- Settles O30: without a data access nothing is refused; with one, it is aligned, and the refusal has a reason of that
access. -/
theorem onlyDataAccessesStop : Obligations.OnlyDataAccessesStop := by
  refine fun i s => ⟨exec_ne_fault i s, fun r h => ?_⟩
  rcases access : dataAccess s i with _ | ⟨a, n⟩
  · exact absurd h (exec_ne_refused_of_no_dataAccess i s access r)
  · exact ⟨a, n, rfl, aligned_of_exec_refused access h, refusesAccess_of_exec access h⟩

/-- Settles O15: the trap record is what a step looks at first; past it only an instruction could fault, and none does. -/
theorem trapEndsRun : Obligations.TrapEndsRun := fun s => ⟨step_of_ended s, step_ne_fault s⟩

/-- Settles O7: the reset counter is a field of `State.reset`, and x[0] has no storage in any state. -/
theorem resetValuesOfSpec : Obligations.ResetValuesOfSpec :=
  ⟨rfl, readGr_reset 0, State.readGr_zero⟩

end Settled
